-- ==== Sys2Proof/Word.lean ====
section
/-! DEFINITION. The word types of the Glarad G9 and their plainest arithmetic. -/

namespace Sys2Proof

/-- A 64-bit A register, mailbox or CSR value (file 01 R25). -/
abbrev Word := BitVec 64

/-- A 32-bit vector lane or accumulator element (file 01 R25, file 03 R86). -/
abbrev Lane := BitVec 32

/-- A byte of memory. -/
abbrev Byte := BitVec 8

/-- The two's-complement reading of an `n`-bit field: `sext` of file 00 R11 as an integer. -/
def sextInt (n x : Nat) : Int :=
  if x % 2 ^ n < 2 ^ (n - 1) then ((x % 2 ^ n : Nat) : Int) else ((x % 2 ^ n : Nat) : Int) - (2 ^ n : Nat)

/-- An integer taken modulo 2^64. -/
def wrap64 (x : Int) : Word := BitVec.ofInt 64 x

/-- Bits `lo + n - 1` to `lo` of `x`. -/
def bits (x lo n : Nat) : Nat := x / 2 ^ lo % 2 ^ n

/-- Bit `i` of `x`. -/
def bit (x i : Nat) : Bool := x / 2 ^ i % 2 == 1

end Sys2Proof
end

