-- ==== Sys2Proof/Config.lean ====
section
/-! DEFINITION. Free values: what the manual leaves open where the machine goes on. They are constants without a body, so that
nothing can be proved of a value of theirs; each is applied to the counter `freeN` of State, or to what it depends on. -/

namespace Sys2Proof.Config

/-- Which of the values a race allows is returned (file 03 R98; log 5). -/
opaque raceChoice : Nat → Nat
/-- Whether a line has left the core view before a load that would find it (file 03 R500; log 5). -/
opaque lineDropped : Nat → Bool
/-- Whether a remap filter that holds this many records is full (file 14 R388 gives no size; log 91). -/
opaque filterFull : Nat → Bool
/-- Whether a stale translation is still cached (file 14 R385; log 6). -/
opaque staleCached : Nat → Bool
/-- Whether a fetch that PBR, PBRX or BRL started before a renewal delivers the old bundle (file 05 R159; log 17). -/
opaque staleFetch : Nat → Bool
/-- Cycles beyond the unloaded figures that a global access takes (file 08 R306: no fixed bound under load; log 7). -/
opaque loadDelay : Nat → Nat
/-- Part of a promise that the state of the paths adds (file 03 R116; log 7). -/
opaque promiseDelay : Nat → Nat
/-- Measured energy of a bundle above its declared energy, in units (file 08 R317; log 8). -/
opaque measured : Nat → Nat → Nat
/-- SHA-512 of a string of bytes (file 18 R466; file 20 R482; log 10). -/
opaque sha512 : List Nat → Nat
/-- Whether a P-521 signature over the image header verifies under the fused key (file 20 R482; log 10). -/
opaque signatureOk : List Nat → Bool
/-- Content of an SPDM response that rests on keys or nonces (file 18 R466; log 10). -/
opaque spdmContent : Nat → Nat → List Nat
/-- Whether the verification data of an SPDM FINISH is right (file 18 R466; log 10). -/
opaque finishOk : Nat → Bool
/-- The sample of a cluster's sensor at the end of a control period, in 1/256 degrees, and the measured power of the period in mW (file 16
R425, R431; log 117). -/
opaque sensor : Nat → Nat → Nat
opaque power : Nat → Nat
/-- The frame of GDDR7 from which on step 9 loads the runtime part of the image (file 20 R475, R483; log 119). -/
opaque runtimeFrame : Nat
/-- Whether a power loss in the recovery loader cuts a flash write (file 20 R475 cases; log 120). -/
opaque flashCut : Nat → Bool
/-- Corrected soft errors that a kind of storage has met by a cycle of a start (file 21 R490; log 121). -/
opaque corrected : Nat → Nat → Nat → Nat
/-- Whether a PCIe completer supports AtomicOps (file 03 R92; log 11). -/
opaque atomicOps : Nat → Bool
/-- The bytes of a coded frame (file 11 R357; log 13), from what it is (0 predicted from the frame before it, 1 a key frame, 2 a repeat of
the frame before it) and the rows read for it. -/
opaque frameBytes : Nat → Nat → List (BitVec 8) → List (BitVec 8)
/-- What a broken engine unit returns, and other data the manual leaves unstated (log 13). -/
opaque freeByte : Nat → BitVec 8
/-- Whether a PCIe read by an engine completes successfully (file 03 R93, file 07 R268; log 11). -/
opaque engineReadOk : Nat → Bool
/-- The handler of the supervisor context of a level (file 01 R32 gives it none of its own; log 41). -/
opaque supervisorHandler : Nat → BitVec 56
/-- A free word, for a value the manual does not state (log 16). -/
opaque freeWord : Nat → Word

end Sys2Proof.Config
end

