-- ==== Sys2Proof/Syntax.lean ====
section
/-! DEFINITION. Syntax of the Glarad G9: one constructor of `Instr` for every row of spec/opcode_table.json.
The slot instructions carry the fields of their word format (file 04 R125, R126; file 07 R242, R243) as they stand in the
word, as natural numbers; `WellFormed` bounds them. The device events of the table (completions, controller acts, host
and firmware acts) carry what the outside, or the order of events, supplies. -/

namespace Sys2Proof

/-- Format G of the C and A slots (R125): guard, D, A, B. -/
structure OpG where
  g : Nat
  d : Nat
  a : Nat
  b : Nat
deriving DecidableEq, Repr

/-- Format I of the A slot (R125): guard, D, IMM12. -/
structure OpI where
  g : Nat
  d : Nat
  imm : Nat
deriving DecidableEq, Repr

/-- Format B (R125): guard, BK, DISP (15 bits, two's complement). -/
structure OpB where
  g : Nat
  k : Nat
  disp : Nat
deriving DecidableEq, Repr

/-- Format L (R125): guard, CNT, END. -/
structure OpLp where
  g : Nat
  cnt : Nat
  last : Nat
deriving DecidableEq, Repr

/-- Format N (R125): guard, IMM18. -/
structure OpN where
  g : Nat
  imm : Nat
deriving DecidableEq, Repr

/-- Format Q (R125): PD, PA, PB, PART; it carries no guard. -/
structure OpQ where
  pd : Nat
  pa : Nat
  pb : Nat
  part : Nat
deriving DecidableEq, Repr

/-- The long A form (R126): a word in format G and IMM32. -/
structure OpL where
  g : Nat
  d : Nat
  a : Nat
  b : Nat
  imm : Nat
deriving DecidableEq, Repr

/-- Format G of bay `bay` (R125, R208); VSEL has a predicate number in `g` (R217), VDOT2 its `.sat` bit (R219). -/
structure OpV where
  bay : Nat
  g : Nat
  d : Nat
  a : Nat
  b : Nat
deriving DecidableEq, Repr

/-- Format I of bay `bay` (R215). -/
structure OpVI where
  bay : Nat
  g : Nat
  d : Nat
  imm : Nat
deriving DecidableEq, Repr

/-- Format P of bay `bay` (R125, R216): condition, PT, PF, A, B or IMM6. -/
structure OpP where
  bay : Nat
  cc : Nat
  pt : Nat
  pf : Nat
  a : Nat
  b : Nat
deriving DecidableEq, Repr

/-- Format MA (R242). -/
structure OpMA where
  g : Nat
  td : Nat
  wp : Nat
  xp : Nat
  kp : Nat
  int : Nat
deriving DecidableEq, Repr

/-- Format MX (R242). -/
structure OpMX where
  g : Nat
  t : Nat
  xp : Nat
  fmt : Nat
  sgeo : Nat
  tag : Nat
  cb : Nat
  chalf : Nat
  int : Nat
deriving DecidableEq, Repr

/-- Format MT (R242). -/
structure OpMT where
  g : Nat
  td : Nat
  ta : Nat
  tb : Nat
  col : Nat
  mode : Nat
  int : Nat
  cnt : Nat
deriving DecidableEq, Repr

/-- Format MI (R242). -/
structure OpMI where
  g : Nat
  bay : Nat
  va : Nat
  half : Nat
deriving DecidableEq, Repr

/-- Format MW (R242). -/
structure OpMW where
  g : Nat
  one : Nat
  td : Nat
deriving DecidableEq, Repr

/-- Format DE (R243). -/
structure OpDE where
  g : Nat
  ssp : Nat
  dsp : Nat
  src : Nat
  dst : Nat
  np : Nat
  pr : Nat
  aux : Nat
  aux2 : Nat
  mod : Nat
deriving DecidableEq, Repr

/-- The engine command that ends (file 07 R265), and the address of an uncorrectable data error in GDDR7 that it met, if any (R268). -/
structure EngineEnd where
  cmd : Nat
  bad : Option Nat
deriving DecidableEq, Repr

/-- A side of a ring pair (file 07 R289): its step tag, and whether it is an RSEND. -/
structure RingSide where
  tag : Nat
  send : Bool
  /-- Requester ID of the landing writes of an RRECV (file 18 R459). -/
  rid : Nat := 0
deriving DecidableEq, Repr

/-- Format DR (R243). -/
structure OpDR where
  g : Nat
  rd : Nat
  ra : Nat
  rb : Nat
  rc : Nat
  sub : Nat
  pt : Nat
deriving DecidableEq, Repr

/-- The instructions and device events of the opcode table, one constructor for each row; the events that only the outside supplies stand
last. -/
inductive Instr where
  /-- BUNDLE_REPETITION (R130). One repetition of a bundle issues: it runs the group check, charges ENERGY and re-issues the recorded operations of absent sticky slots. -/
  | bundleRepetition
  /-- GLOBAL_ACCESS_COMPLETE (R306). A load or atomic result returns from its home and is written to the register or to the saved context. -/
  | globalAccessComplete (strand : Nat) (ok : Bool) (value : Nat)
  /-- PBR (R155). Writes a PC-relative target to a branch-target register and starts fetching there. -/
  | pbr (o : OpB)
  /-- PBRX (R156). Transom copy of an A register to a branch-target register that starts fetching there after 2 cycles. -/
  | pbrx (o : OpG)
  /-- BR (R157). Branches to a branch-target register. -/
  | br (o : OpG)
  /-- BRL (R157). Branches to a branch-target register and writes the return address to b7. -/
  | brl (o : OpG)
  /-- LOOP (R161). Arms a hardware loop whose count comes from an A register. -/
  | loop (o : OpLp)
  /-- LOOPI (R161). Arms a hardware loop whose count is an immediate. -/
  | loopi (o : OpLp)
  /-- LOOPM (R161). Arms a hardware loop whose count comes from a mailbox. -/
  | loopm (o : OpLp)
  /-- LEXIT (R164). Pops up to n loop levels and continues after the last bundle of the outermost level popped. -/
  | lexit (o : OpN)
  /-- SLEEP (R167). Blocks the strand until an absolute or relative wake cycle. -/
  | sleep (o : OpG)
  /-- SLEEP_WAKE (R117). At the wake cycle the strand becomes ready and the promise check runs. -/
  | sleepWake (strand : Nat)
  /-- WAITP (R168). Blocks until a mailbox arrival bit selected by the mask is set. -/
  | waitp (o : OpN)
  /-- BAR (R169). Arrives at a team or launch barrier and releases the members once all have arrived. -/
  | bar (o : OpN)
  /-- PHASE (R172). Performs a phase boundary of a scope: it publishes the pending stores and renews the view. -/
  | phase (o : OpN)
  /-- TRAP (R173). Retires the bundle and then takes strand trap 0x09 with the immediate in TINFO. -/
  | trap (o : OpN)
  /-- TRET (R38). Ends a level-0 handler and resumes at TEPC, repetition TREP. -/
  | tret (o : OpN)
  /-- SRET (R38). Ends a level-1 or level-2 handler on a supervisor core. -/
  | sret (o : OpN)
  /-- EXIT (R175). Stops the strand after its bundle retires and discards its work range. -/
  | exit (o : OpN)
  /-- YIELD (R170). Switches to the next ready strand. -/
  | yield (o : OpN)
  /-- PAND (R176). Predicate AND over the selected bits. -/
  | pand (o : OpQ)
  /-- POR (R176). Predicate OR over the selected bits. -/
  | por (o : OpQ)
  /-- PXOR (R176). Predicate XOR over the selected bits. -/
  | pxor (o : OpQ)
  /-- PANDN (R176). Predicate AND NOT over the selected bits. -/
  | pandn (o : OpQ)
  /-- PANY (R177). Tests whether any lane of pA under mask pB is set. -/
  | pany (o : OpQ)
  /-- PALL (R177). Tests whether every lane of pA under mask pB is set. -/
  | pall (o : OpQ)
  /-- PMOV (R176). Copies the selected predicate bits. -/
  | pmov (o : OpQ)
  /-- ADD (R178). 64-bit wrapping add. -/
  | add (o : OpG)
  /-- SUB (R178). 64-bit wrapping subtract. -/
  | sub (o : OpG)
  /-- MUL (R178). Low 64 bits of a product. -/
  | mul (o : OpG)
  /-- MULH (R178). High 64 bits of a signed product. -/
  | mulh (o : OpG)
  /-- MULHU (R178). High 64 bits of an unsigned product. -/
  | mulhu (o : OpG)
  /-- DIV (R179). Signed division. -/
  | div (o : OpG)
  /-- DIVU (R179). Unsigned division. -/
  | divu (o : OpG)
  /-- REM (R179). Signed remainder. -/
  | rem (o : OpG)
  /-- REMU (R179). Unsigned remainder. -/
  | remu (o : OpG)
  /-- MIN (R178). Signed minimum. -/
  | min (o : OpG)
  /-- MAX (R178). Signed maximum. -/
  | max (o : OpG)
  /-- MINU (R178). Unsigned minimum. -/
  | minu (o : OpG)
  /-- MAXU (R178). Unsigned maximum. -/
  | maxu (o : OpG)
  /-- ABS (R178). Absolute value, wrapping. -/
  | abs (o : OpG)
  /-- AND (R180). Bitwise AND. -/
  | and (o : OpG)
  /-- OR (R180). Bitwise OR. -/
  | or (o : OpG)
  /-- XOR (R180). Bitwise XOR. -/
  | xor (o : OpG)
  /-- ANDN (R180). Bitwise A AND NOT B. -/
  | andn (o : OpG)
  /-- ORN (R180). Bitwise A OR NOT B. -/
  | orn (o : OpG)
  /-- SHL (R180). Left shift by a register. -/
  | shl (o : OpG)
  /-- SHR (R180). Logical right shift by a register. -/
  | shr (o : OpG)
  /-- SAR (R180). Arithmetic right shift by a register. -/
  | sar (o : OpG)
  /-- ROTL (R180). Left rotation. -/
  | rotl (o : OpG)
  /-- SHLI (R180). Left shift by an immediate. -/
  | shli (o : OpG)
  /-- SHRI (R180). Logical right shift by an immediate. -/
  | shri (o : OpG)
  /-- SARI (R180). Arithmetic right shift by an immediate. -/
  | sari (o : OpG)
  /-- CLZ (R181). Count of leading zeros. -/
  | clz (o : OpG)
  /-- CTZ (R181). Count of trailing zeros. -/
  | ctz (o : OpG)
  /-- POPC (R181). Population count. -/
  | popc (o : OpG)
  /-- BREV (R181). Bit reversal. -/
  | brev (o : OpG)
  /-- BFX (R182). Signed bit-field extract. -/
  | bfx (o : OpG)
  /-- BFXU (R182). Unsigned bit-field extract. -/
  | bfxu (o : OpG)
  /-- BFI (R182). Bit-field insert. -/
  | bfi (o : OpG)
  /-- FSHL (R183). Funnel shift left. -/
  | fshl (o : OpG)
  /-- FSHR (R183). Funnel shift right. -/
  | fshr (o : OpG)
  /-- MOVI (R186). Writes a sign-extended 12-bit immediate. -/
  | movi (o : OpI)
  /-- MOVL (R186). Writes a 32-bit immediate, sign-extended or into the high half. -/
  | movl (o : OpL)
  /-- ADDI (R178). Adds a sign-extended 32-bit immediate. -/
  | addi (o : OpL)
  /-- CMP (R184). Integer compare of two registers into a predicate pair. -/
  | cmp (o : OpL)
  /-- CMPI (R184). Integer compare with an immediate into a predicate pair. -/
  | cmpi (o : OpL)
  /-- SEL (R185). Selects one of two registers by a predicate's S bit. -/
  | sel (o : OpL)
  /-- FCMP (R206). FP32 compare into a predicate pair. -/
  | fcmp (o : OpL)
  /-- LD (R188). Load from the global space. -/
  | ld (o : OpL)
  /-- ST (R188). Store to the global space, pending until a boundary publishes it. -/
  | st (o : OpL)
  /-- LDX (R189). Load from the team's X buffer. -/
  | ldx (o : OpL)
  /-- STX (R189). Store to the team's X buffer. -/
  | stx (o : OpL)
  /-- ATOM (R191). Atomic read-modify-write at the home of the location. -/
  | atom (o : OpL)
  /-- CAS (R191). Atomic compare-and-swap at the home of the location. -/
  | cas (o : OpL)
  /-- CSRR (R192). Reads a CSR. -/
  | csrr (o : OpG)
  /-- CSRW (R192). Writes a CSR. -/
  | csrw (o : OpG)
  /-- MBXR (R194). Reads a mailbox and clears its arrival bit. -/
  | mbxr (o : OpG)
  /-- MBXW (R194). Writes another strand's mailbox after the bundle retires. -/
  | mbxw (o : OpG)
  /-- CYC (R196). Reads the cycle counter. -/
  | cyc (o : OpG)
  /-- XMOVA_B (R197). Transom copy of an A register into a branch-target register. -/
  | xmovaB (o : OpG)
  /-- XMOVA_V (R197). Transom copy of A[31:0] into every lane of a register in all bays. -/
  | xmovaV (o : OpG)
  /-- XMOVA_PAIR (R197). Transom copy of the two halves of an A register into the even and odd lanes of all bays. -/
  | xmovaPair (o : OpG)
  /-- WGET (R199). Takes the next work index, stealing or taking a forced portion when the strand's own range is empty. -/
  | wget (o : OpG)
  /-- WRANGE (R198). Sets the strand's work range. -/
  | wrange (o : OpG)
  /-- FADD (R204). FP32 add. -/
  | fadd (o : OpG)
  /-- FSUB (R204). FP32 subtract. -/
  | fsub (o : OpG)
  /-- FMUL (R204). FP32 multiply. -/
  | fmul (o : OpG)
  /-- FFMA (R204). FP32 fused multiply-add into the destination. -/
  | ffma (o : OpG)
  /-- FCVT (R205). Scalar conversion selected by a code. -/
  | fcvt (o : OpG)
  /-- VADD (R213). Lane-wise 32-bit add. -/
  | vadd (o : OpV)
  /-- VSUB (R213). Lane-wise subtract. -/
  | vsub (o : OpV)
  /-- VMUL (R213). Lane-wise low product. -/
  | vmul (o : OpV)
  /-- VMULH (R213). Lane-wise signed high product. -/
  | vmulh (o : OpV)
  /-- VMULHU (R213). Lane-wise unsigned high product. -/
  | vmulhu (o : OpV)
  /-- VMAD (R213). Lane-wise multiply-add into the destination. -/
  | vmad (o : OpV)
  /-- VMIN (R213). Lane-wise signed minimum. -/
  | vmin (o : OpV)
  /-- VMAX (R213). Lane-wise signed maximum. -/
  | vmax (o : OpV)
  /-- VMINU (R213). Lane-wise unsigned minimum. -/
  | vminu (o : OpV)
  /-- VMAXU (R213). Lane-wise unsigned maximum. -/
  | vmaxu (o : OpV)
  /-- VABS (R213). Lane-wise absolute value. -/
  | vabs (o : OpV)
  /-- VAND (R213). Lane-wise AND. -/
  | vand (o : OpV)
  /-- VOR (R213). Lane-wise OR. -/
  | vor (o : OpV)
  /-- VXOR (R213). Lane-wise XOR. -/
  | vxor (o : OpV)
  /-- VANDN (R213). Lane-wise A AND NOT B. -/
  | vandn (o : OpV)
  /-- VSHL (R213). Lane-wise left shift. -/
  | vshl (o : OpV)
  /-- VSHR (R213). Lane-wise logical right shift. -/
  | vshr (o : OpV)
  /-- VSAR (R213). Lane-wise arithmetic right shift. -/
  | vsar (o : OpV)
  /-- VBFX (R214). Lane-wise signed bit-field extract. -/
  | vbfx (o : OpV)
  /-- VBFXU (R214). Lane-wise unsigned bit-field extract. -/
  | vbfxu (o : OpV)
  /-- VBFI (R214). Lane-wise bit-field insert. -/
  | vbfi (o : OpV)
  /-- VFSHL (R214). Lane-wise funnel shift left. -/
  | vfshl (o : OpV)
  /-- VFSHR (R214). Lane-wise funnel shift right. -/
  | vfshr (o : OpV)
  /-- VCLZ (R213). Lane-wise count of leading zeros. -/
  | vclz (o : OpV)
  /-- VPOPC (R213). Lane-wise population count. -/
  | vpopc (o : OpV)
  /-- VCMP (R216). Lane-wise integer compare into predicate lanes. -/
  | vcmp (o : OpP)
  /-- VCMPI (R216). Lane-wise compare with an immediate into predicate lanes. -/
  | vcmpi (o : OpP)
  /-- VFCMP (R216). Lane-wise FP32 compare into predicate lanes. -/
  | vfcmp (o : OpP)
  /-- VSEL (R217). Lane-wise select by predicate. -/
  | vsel (o : OpV)
  /-- VMOVI (R215). Writes a sign-extended immediate to the active lanes. -/
  | vmovi (o : OpVI)
  /-- VADDSAT (R218). Saturating add of packed 16-bit halves. -/
  | vaddsat (o : OpV)
  /-- VSUBSAT (R218). Saturating subtract of packed 16-bit halves. -/
  | vsubsat (o : OpV)
  /-- VDOT4 (R219). Byte dot product accumulated with wrap. -/
  | vdot4 (o : OpV)
  /-- VDOT4S (R219). Byte dot product accumulated with saturation. -/
  | vdot4s (o : OpV)
  /-- VDOT2 (R219). Halfword dot product, optionally saturating. -/
  | vdot2 (o : OpV)
  /-- VFADD (R221). Lane-wise FP32 add. -/
  | vfadd (o : OpV)
  /-- VFSUB (R221). Lane-wise FP32 subtract. -/
  | vfsub (o : OpV)
  /-- VFMUL (R221). Lane-wise FP32 multiply. -/
  | vfmul (o : OpV)
  /-- VFMA (R221). Lane-wise FP32 fused multiply-add. -/
  | vfma (o : OpV)
  /-- VBFMA (R223). Fused multiply-add on packed BF16 pairs. -/
  | vbfma (o : OpV)
  /-- VFMIN (R222). Lane-wise FP32 minimum. -/
  | vfmin (o : OpV)
  /-- VFMAX (R222). Lane-wise FP32 maximum. -/
  | vfmax (o : OpV)
  /-- VFABS (R221). Clears the sign of each lane. -/
  | vfabs (o : OpV)
  /-- VFNEG (R221). Inverts the sign of each lane. -/
  | vfneg (o : OpV)
  /-- VFCVT (R224). Lane-wise conversion selected by a code. -/
  | vfcvt (o : OpV)
  /-- VNRW (R228). Rotates, scales and narrows an FP32 block into a code stream. -/
  | vnrw (o : OpV)
  /-- VWDN (R229). Widens a code stream to FP32, changing its rotation. -/
  | vwdn (o : OpV)
  /-- VRCP (R225). Correctly rounded reciprocal. -/
  | vrcp (o : OpV)
  /-- VRSQ (R225). Correctly rounded reciprocal square root. -/
  | vrsq (o : OpV)
  /-- VEXP2 (R225). Correctly rounded 2^x. -/
  | vexp2 (o : OpV)
  /-- VLOG2 (R225). Correctly rounded log2. -/
  | vlog2 (o : OpV)
  /-- VLD (R231). Loads a 64-byte row of X into a register and takes the pane's tag. -/
  | vld (o : OpV)
  /-- VST (R231). Stores a register to a 64-byte row of X and sets the pane's tag. -/
  | vst (o : OpV)
  /-- VLDG (R232). Gathers one word of X per lane. -/
  | vldg (o : OpV)
  /-- VSTS (R232). Scatters one word per lane to X. -/
  | vsts (o : OpV)
  /-- VSHUF (R234). Permutes lanes within a bay. -/
  | vshuf (o : OpV)
  /-- VRED (R235). Reduces the bay's lanes by a selected operation. -/
  | vred (o : OpV)
  /-- VSCAN (R236). Inclusive or exclusive scan over the bay's lanes. -/
  | vscan (o : OpV)
  /-- VCNTP (R237). Counts set predicate bits. -/
  | vcntp (o : OpV)
  /-- VLANE (R238). Writes lane indices. -/
  | vlane (o : OpV)
  /-- XMOVV_BAY (R239). Transom copy of a register and its tag to another bay. -/
  | xmovvBay (o : OpV)
  /-- XMOVV_ALL (R239). Transom copy of a register to all eight bays. -/
  | xmovvAll (o : OpV)
  /-- XMOVV_A (R239). Transom copy of one lane to an A register. -/
  | xmovvA (o : OpV)
  /-- XMOVV_A2 (R239). Transom copy of a lane pair to an A register. -/
  | xmovvA2 (o : OpV)
  /-- MMA (R252). Accumulates pane-pair products into a tile. -/
  | mma (o : OpMA)
  /-- MMAZ (R252). Pane-pair products into a tile that starts from zero. -/
  | mmaz (o : OpMA)
  /-- MMAG (R253). Pane-pair products with X rows gathered through the index latch. -/
  | mmag (o : OpMA)
  /-- MIDX (R254). Transom copy of a register half into the index latch. -/
  | midx (o : OpMI)
  /-- MLD (R255). Loads a run of X panes into a tile, decoding as needed. -/
  | mld (o : OpMX)
  /-- MST (R256). Stores a tile to X panes in a chosen format and sets their descriptors. -/
  | mst (o : OpMX)
  /-- MZERO (R257). Zeros tiles or sets or clears their discard marks. -/
  | mzero (o : OpMT)
  /-- MTRN (R258). Transposes a tile. -/
  | mtrn (o : OpMT)
  /-- MROWMAX (R259). Writes row maxima into a tile column. -/
  | mrowmax (o : OpMT)
  /-- MROWSUM (R259). Writes row sums into a tile column. -/
  | mrowsum (o : OpMT)
  /-- MSCALE (R260). Scales tile rows by a column, by mul, ex2s or div. -/
  | mscale (o : OpMT)
  /-- MADDT (R261). Adds two tiles. -/
  | maddt (o : OpMT)
  /-- MWAIT (R262). Stalls issue until earlier M-queue operations complete. -/
  | mwait (o : OpMW)
  /-- M_OP_START (R249). An M-queue operation starts at the head once its panes and tiles are ready, and makes its deferred checks. -/
  | mOpStart (core : Nat)
  /-- M_OP_COMPLETE (R301). An M-queue operation completes, writes its tile and merges its flags. -/
  | mOpComplete (core : Nat)
  /-- DCOPY (R269). Copies or converts panes, tiles or global units. -/
  | dcopy (o : OpDE)
  /-- DCOPY2 (R271). Strided row copy between global memory and packed panes. -/
  | dcopy2 (o : OpDE)
  /-- DGATH (R272). Gathers indexed global rows into X panes. -/
  | dgath (o : OpDE)
  /-- DFILL (R273). Fills panes, tiles or global units with a pattern. -/
  | dfill (o : OpDE)
  /-- DTBL (R275). Interpolates a piecewise-linear table over X elements. -/
  | dtbl (o : OpDE)
  /-- DTBLLD (R274). Loads a table image into a table slot. -/
  | dtblld (o : OpDR)
  /-- DPREF (R276). Prefetches a range into the block cache. -/
  | dpref (o : OpDR)
  /-- DFLUSH (R276). Writes back, and optionally invalidates, published dirty sectors. -/
  | dflush (o : OpDR)
  /-- SHUT (R277). Sets pane shutters to E and returns a pane handle. -/
  | shut (o : OpDE)
  /-- OPENP (R277). Sets pane shutters to T after earlier commands, and sets or clears discard marks. -/
  | openp (o : OpDE)
  /-- ENGINE_COMPLETION (R111). An engine command completes: it publishes global writes, sets descriptors, reopens shutters and merges flags. -/
  | engineCompletion (team : Nat) (e : EngineEnd)
  /-- ENQ (R279). Sends a 64-byte entry to a queue through the replay window. -/
  | enq (o : OpDR)
  /-- ENQ_ACK (R279). An acknowledgement frees a replay-window place and may unblock an ENQ. -/
  | enqAck (strand : Nat)
  /-- ENQ_RESEND (R279). After the back-off time a negatively acknowledged entry is resent in order. -/
  | enqResend (strand : Nat)
  /-- DEQ (R280). Takes an entry from a queue, blocking on an empty queue. -/
  | deq (o : OpDR)
  /-- DEQ_NB (R280). Takes an entry if there is one and reports the outcome in a predicate. -/
  | deqNb (o : OpDR)
  /-- QCTL_OPEN (R282). Opens a queue with a capacity. -/
  | qctlOpen (o : OpDR)
  /-- QCTL_CLOSE (R282). Closes a queue and drops its entries. -/
  | qctlClose (o : OpDR)
  /-- QCTL_BACKOFF (R282). Sets a queue's back-off. -/
  | qctlBackoff (o : OpDR)
  /-- QCTL_DEPTH (R282). Returns the entries a queue holds. -/
  | qctlDepth (o : OpDR)
  /-- TSUB (R283). Publishes and submits a task descriptor to the distributor. -/
  | tsub (o : OpDR)
  /-- LAUNCH (R284). Publishes and submits a launch to a queue, bypassing the dependence table. -/
  | launch (o : OpDR)
  /-- JRAISE (R285). Adds to a JCB's EXPECT unless the JCB is complete. -/
  | jraise (o : OpDR)
  /-- JWAIT (R287). Blocks until a JCB is complete, then renews and returns the flags and error. -/
  | jwait (o : OpDR)
  /-- JDONE (R286). Publishes and posts one completion with flags to a JCB. -/
  | jdone (o : OpDR)
  /-- JFLAGS (R287). Returns a JCB's flags, error and completion state. -/
  | jflags (o : OpDR)
  /-- RSEND (R289). Sends panes or global units on a ring port under a step tag. -/
  | rsend (o : OpDE)
  /-- RRECV (R289). Receives panes or global units from a ring port under a step tag. -/
  | rrecv (o : OpDE)
  /-- PFXLOOK (R290). Looks up a prefix key and maps its frames read-only. -/
  | pfxlook (o : OpDR)
  /-- PFXINS (R396). Inserts pages under a prefix key or adopts the winner's frames. -/
  | pfxins (o : OpDR)
  /-- TRIM (R292). Unmaps unpinned pages of a range and frees their frames. -/
  | trim (o : OpDR)
  /-- PIN (R293). Sets or clears PIN on the mapped pages of a range. -/
  | pin (o : OpDR)
  /-- STOPEN (R333). Presents a stream contract to admission. -/
  | stopen (o : OpDR)
  /-- STCLOSE (R335). Closes a stream at its next release. -/
  | stclose (o : OpDR)
  /-- STRUNG (R295). Returns a stream's current rung. -/
  | strung (o : OpDR)
  /-- FRAME_RSV (R340). Reserves the next frame-ring slot. -/
  | frameRsv (o : OpDR)
  /-- FRAME_PUB (R340). Publishes a frame-ring slot and applies the climb rule. -/
  | framePub (o : OpDR)
  /-- FRAME_CHK (R353). Task checkpoint that applies the drop rule and returns the rung. -/
  | frameChk (o : OpDR)
  /-- SEEDSET (R297). Writes a sign-seed register at level 2. -/
  | seedset (o : OpDR)
  /-- CBSET (R297). Writes a codebook at level 2. -/
  | cbset (o : OpDR)
  /-- XLINV_RNG (R398). Invalidates translations of a range of one ASID. -/
  | xlinvRng (o : OpDR)
  /-- XLINV_ASID (R398). Invalidates every translation of one ASID. -/
  | xlinvAsid (o : OpDR)
  /-- XLINV_ALL (R398). Invalidates every translation. -/
  | xlinvAll (o : OpDR)
  /-- CRSET (R371). Requests a role map and runs the test step of a role change. -/
  | crset (o : OpDR)
  /-- ROLE_CHANGE_DRAIN_DONE (R371). Once the drain has ended, the flush step starts. -/
  | roleChangeDrainDone
  /-- ROLE_CHANGE_FLUSH_DONE (R371). Once the flush has ended, the partition is re-enumerated and selection resumes. -/
  | roleChangeFlushDone
  /-- DISTRIBUTOR_SELECTION (R346). The distributor selects a candidate task by slack or priority and binds its teams. -/
  | distributorSelection
  /-- TEAM_EXIT (R175). Once all its strands and operations have finished, a team publishes its stores, merges its flags and posts its completion. -/
  | teamExit (team : Nat)
  /-- BANK_LOAD_COMPLETE (R411). The incoming team's context has been loaded into a shadow bank. -/
  | bankLoadComplete (core bank : Nat)
  /-- BANK_DRAIN_COMPLETE (R411). An outgoing context has drained to its slot, and the bank is free. -/
  | bankDrainComplete (core bank : Nat)
  /-- PREEMPTION_POINT (R412). The core reaches the pre-emption point and begins the swap. -/
  | preemptionPoint (core : Nat)
  /-- SWAP_END (R413). The swap ends, the incoming team issues and the departing panes start to spill. -/
  | swapEnd (core : Nat)
  /-- SPILL_STEP (R417). The spill unit writes one departing pane or tile to the slot and clears it. -/
  | spillStep (core : Nat)
  /-- FILL_STEP (R421). The spill unit fills one pane or tile of a resumed team from its slot. -/
  | fillStep (core : Nat)
  /-- STREAM_RELEASE (R336). At t_k the scheduler releases frame job k and launches its frame program. -/
  | streamRelease (stream : Nat)
  /-- DEFERRED_RELEASE (R337). A release deferred by two outstanding jobs runs when the older one ends, and posts an overrun. -/
  | deferredRelease (stream : Nat)
  /-- RING_STALL_TIMEOUT (R341). A slot unpublished after RTIMEOUT posts a ring-stall event. -/
  | ringStallTimeout (stream ring : Nat)
  /-- ENCODER_ENTRY (R356). The encoder takes a band entry and drops it, with an event, if it is bad. -/
  | encoderEntry (engine : Nat)
  /-- ENCODER_BAND_READ (R357). The encoder reads and codes the next band, updates the staging header and places finished frames. -/
  | encoderBandRead (stream : Nat)
  /-- ENCODER_REPEAT_FRAME (R357). A frame incomplete at D_k + PERIOD is coded as a repeat. -/
  | encoderRepeatFrame (stream : Nat)
  /-- BITSTREAM_RING_SPACE (R341). The encoder resumes once CONS frees a bitstream-ring slot. -/
  | bitstreamRingSpace (stream : Nat)
  /-- CLUSTER_HALT (R439). A stopped cluster with no team and no pending M operation goes to P(0). -/
  | clusterHalt (course cluster : Nat)
  /-- PATTERN_CHANGE (R429). A new TARGET pattern takes effect at the next 16-slot boundary. -/
  | patternChange (course cluster : Nat)
  /-- DWELL_END (R436). A cluster's dwell expires after DWELL ms. -/
  | dwellEnd (course cluster : Nat)
  /-- REFRESH_OPERATION (R313). One scheduled refresh operation refreshes a pane or slice block. -/
  | refreshOperation (course : Nat)
  /-- BAR2ERR_READ (R455). A read returns the window fault count and address, and clears them. -/
  | bar2errRead
  /-- MCTL_RESET (R474). Resets the plinth. -/
  | mctlReset
  /-- MCTL_JCLR (R478). Clears the journal counts and fences at the next start. -/
  | mctlJclr
  /-- REVOLUTION_TIMEOUT (R462). A pair waiting REVTO abandons its revolution. -/
  | revolutionTimeout (port layer frame : Nat)
  /-- POWER_ON (R474). Power-on resets the plinth and begins a start. -/
  | powerOn
  /-- HOST_HOT_RESET (R474). A hot reset or link-down of the host port resets the plinth. -/
  | hostHotReset
  /-- STEP_WATCHDOG (R478). A step that runs past 4 times its bound resets the plinth with cause 3. -/
  | stepWatchdog
  /-- POWER_LOSS (R478). The module loses power, which stops all work and leaves the running journal record with OUTCOME 4 and any flash write unfinished. -/
  | powerLoss
  /-- ROLE_CHANGE_TEST_DONE (R371). The test step of a role change ends within 4,096 cycles; CRSET's code is returned, and the drain step begins if the map was accepted and the request was not a dry run. -/
  | roleChangeTestDone
  /-- D_OPERATION_COMPLETE (R302). A plinth service operation of a D instruction (TSUB, STOPEN, FRAME, QCTL, PFXLOOK, DEQ.nb and the like), or a WGET steal, completes and writes its register or predicate result, or writes it to the saved context if the team has been pre-empted. -/
  | dOperationComplete (strand : Nat)
  /-- STALL_BUNDLE (R433). The core inserts a stall bundle on a cycle where W + E would exceed BUDGET. -/
  | stallBundle (core : Nat)
  /-- PCIE_COMPLETION_TIMEOUT (R93). A load or atomic through a PCIe window that passes the port's completion timeout fails with fault 0x46. -/
  | pcieCompletionTimeout (strand : Nat)
  /-- RING_PAIR_COMPLETE (R289). A matched ring pair finishes and reopens the panes of both sides. -/
  | ringPairComplete (port : Nat) (side : RingSide) (ok : Bool) (data : List Nat)
  /-- CONTROL_PERIOD_END (R425). The thermal controller samples the sensors and applies the stop, power, hot-spot, pattern and refresh rules. -/
  | controlPeriodEnd (temps : List Nat) (power : Nat)
  /-- DROOP_STRETCH (R430). A detected supply droop stretches the next cycle of the course. -/
  | droopStretch (course : Nat)
  /-- FLTQLOST_READ (R400). A read returns LOST and clears it. -/
  | fltqlostRead
  /-- COURSE_FAILURE (R481). A course fails in service; the keystone kills its launches and fences it. -/
  | courseFailure (course : Nat)
  /-- FIRMWARE_ECC_ERROR (R34). An uncorrectable ECC error in firmware memory raises keystone event 0x81. -/
  | firmwareEccError (addr : Nat)
  /-- FLTQPTR_HEAD_WRITE (R403). The runtime advances HEAD, and held records are posted. -/
  | fltqptrHeadWrite (value : Nat)
  /-- FDISP_RESUME (R405). Resumes a parked strand at the faulting bundle. -/
  | fdispResume (token strand : Nat)
  /-- FDISP_SKIPREP (R405). Resumes a parked strand at the next repetition. -/
  | fdispSkiprep (token strand : Nat)
  /-- FDISP_SKIP (R405). Resumes a parked strand at the next bundle. -/
  | fdispSkip (token strand : Nat)
  /-- FDISP_TERM (R405). Terminates a parked strand. -/
  | fdispTerm (token strand : Nat)
  /-- FDISP_KILL (R406). Terminates every strand of the launch and posts the JCB error. -/
  | fdispKill (token strand : Nat)
  /-- KEYSTONE_DISPOSITION (R405). The keystone disposes of a strand parked by a keystone event through its own register. -/
  | keystoneDisposition (disp token strand : Nat)
  /-- ADMLIM_WRITE (R332). Sets the admission limits, clamping CAP to its bound. -/
  | admlimWrite (value : Nat)
  /-- STCTL_POISON (R453). Poisons a stalled slot at index PUB of a ring. -/
  | stctlPoison (stream ring pidx : Nat)
  /-- STCTL_IRQ (R453). Enables the per-frame interrupt of a stream. -/
  | stctlIrq (stream : Nat) (on : Bool)
  /-- QUEUE_SUSPEND (R349). Writes SUSP of a queue control word; a selected head is returned to its queue. -/
  | queueSuspend (queue : Nat) (on : Bool)
  /-- QUEUE_RANK (R349). Writes RANK of a best-effort queue. -/
  | queueRank (queue rank : Nat)
  /-- FPUSH (R390). Adds a frame to the head of the free list. -/
  | fpush (value : Nat)
  /-- HMBX_WRITE (R452). A host write to a strand's mailbox. -/
  | hmbxWrite (desc value : Nat)
  /-- HINTR_WRITE (R458). Raises a software MSI-X vector from 516 to 2,047. -/
  | hintrWrite (value : Nat)
  /-- RPSTAT_ARM (R459). A write of ARM clears a ring port's ABORTED. -/
  | rpstatArm (port : Nat)
  /-- MCTL_RLOAD (R484). Starts verification and flashing of a recovery image. -/
  | mctlRload (len : Nat)
  /-- REGISTER_WRITE (R452). A write to a control-block register with no behaviour of its own. -/
  | registerWrite (offset size value level : Nat)
  /-- BAR2_READ (R457). A host or peer read through BAR2, performed at the home. -/
  | bar2Read (offset n : Nat)
  /-- BAR2_WRITE (R457). A host or peer write through BAR2, published at .sys. -/
  | bar2Write (offset : Nat) (bytes : List Nat)
  /-- BAR2_ATOMICOP (R457). A PCIe AtomicOp through BAR2, performed as a relaxed atomic at .sys. -/
  | bar2Atomicop (offset n op value compare : Nat)
  /-- RING_WINDOW_WRITE (R460). An 8-byte write to the ring window sets RMBX and is delivered as a mailbox write or an abort word. -/
  | ringWindowWrite (port : Nat) (fromNext : Bool) (offset value : Nat)
  /-- RING_LINK_DOWN (R462). The link to NEXT or PREV goes down and the revolution is abandoned. -/
  | ringLinkDown (port : Nat)
  /-- IDE_INTEGRITY_FAILURE (R467). An IDE stream detects an integrity failure and enters the Insecure state. -/
  | ideIntegrityFailure (port stream : Nat)
  /-- IDE_KM (R467). Sets IDE keys inside an SPDM session. -/
  | ideKm (port stream : Nat) (key : Nat)
  /-- GET_VERSION (R466). SPDM request for the supported versions. -/
  | getVersion (port : Nat)
  /-- GET_CAPABILITIES (R466). SPDM request for the responder's capabilities. -/
  | getCapabilities (port : Nat)
  /-- NEGOTIATE_ALGORITHMS (R466). SPDM algorithm negotiation. -/
  | negotiateAlgorithms (port : Nat)
  /-- GET_DIGESTS (R466). SPDM request for the certificate digests. -/
  | getDigests (port : Nat)
  /-- GET_CERTIFICATE (R466). SPDM request for the certificate chain. -/
  | getCertificate (port slot offset length : Nat)
  /-- CHALLENGE (R466). SPDM challenge of the device identity. -/
  | challenge (port slot nonce : Nat)
  /-- GET_MEASUREMENTS (R466). SPDM request for the measurements in force. -/
  | getMeasurements (port index nonce : Nat)
  /-- KEY_EXCHANGE (R466). SPDM key exchange. -/
  | keyExchange (port slot exchange : Nat)
  /-- FINISH (R466). Completes an SPDM secure session. -/
  | finish (port mac : Nat)
  /-- START_STEP_END (R475). A start-up step ends within its bound and passes, fails or is skipped; this writes its journal record, then either begins the next step, resets the plinth with cause 4, or sets READY at step 10. -/
  | startStepEnd (pass : Bool) (mask detail : Nat)
  /-- MSIX_VECTOR_UNMASK (R458). The host writes an MSI-X table or vector-control mask bit; unmasking a vector whose pending bit is set sends its message. -/
  | msixVectorUnmask (vector : Nat)
  /-- RESIZABLE_BAR_WRITE (R454). A write to the Resizable BAR capability sets the size of BAR2 to a power of two from 1 GB to 256 GB, which changes the window offsets and the bits of VB that are used. -/
  | resizableBarWrite (size : Nat)
deriving DecidableEq, Repr

end Sys2Proof
end

