-- ==== Sys2Proof/WellFormed.lean ====
section
/-! DEFINITION. Well-formed instructions: every field within its width, every register within its file (file 04 R127),
every reserved field zero (R7, R125, R151, R300) and every combination of fields one that the instruction's entry
declares legal. These are the checks R128 makes whatever the guard. -/

namespace Sys2Proof

def OpG.inRange (o : OpG) : Bool := o.g < 128 && o.d < 64 && o.a < 64 && o.b < 64
def OpL.inRange (o : OpL) : Bool := o.g < 128 && o.d < 64 && o.a < 64 && o.b < 64 && o.imm < 4294967296
/-- R125, format L: END from 1 to 4,095. -/
def OpLp.inRange (o : OpLp) : Bool := o.g < 128 && o.cnt < 64 && o.last < 4096 && o.last != 0
def OpN.inRange (o : OpN) : Bool := o.g < 128 && o.imm < 262144
/-- R125, format Q: PART 3 is illegal. -/
def OpQ.inRange (o : OpQ) : Bool := o.pd < 128 && o.pa < 128 && o.pb < 128 && o.part < 3
def OpV.inRange (o : OpV) : Bool := o.bay < 8 && o.g < 128 && o.d < 64 && o.a < 64 && o.b < 64
/-- R216, R135: conditions 6 and 7 are unassigned; PT = PF is illegal unless both are p0. -/
def OpP.inRange (o : OpP) : Bool :=
  o.bay < 8 && o.cc < 6 && o.pt < 128 && o.pf < 64 && o.a < 64 && o.b < 64 && (o.pt != o.pf || o.pt == 0)
def OpMA.inRange (o : OpMA) : Bool := o.g < 128 && o.td < 32 && o.kp < 16 && o.int < 2
def OpMX.inRange (o : OpMX) : Bool :=
  o.g < 128 && o.t < 32 && o.fmt < 16 && o.sgeo < 8 && o.tag < 1024 && o.cb < 4096 && o.chalf < 2 && o.int < 2
def OpMT.inRange (o : OpMT) : Bool :=
  o.g < 128 && o.td < 32 && o.ta < 32 && o.tb < 32 && o.col < 64 && o.mode < 4 && o.int < 2 && o.cnt < 32
def OpDE.inRange (o : OpDE) : Bool :=
  o.g < 128 && o.ssp < 4 && o.dsp < 4 && o.src < 2048 && o.dst < 2048 && o.np < 16 && o.pr < 64 && o.aux < 64 &&
    o.aux2 < 64 && o.mod < 2
def OpDR.inRange (o : OpDR) : Bool :=
  o.g < 128 && o.rd < 64 && o.ra < 64 && o.rb < 64 && o.rc < 64 && o.sub < 8 && o.pt < 128

/-- The condition code of CMP, CMPI and FCMP: IMM32 bits 17:14 (R184). -/
def OpL.cmpCC (o : OpL) : Nat := bits o.imm 14 4
/-- PF of CMP, CMPI and FCMP: IMM32 bits 13:7 (R184). -/
def OpL.cmpPF (o : OpL) : Nat := bits o.imm 7 7
/-- PT of CMP, CMPI and FCMP: IMM32 bits 6:0 (R184). -/
def OpL.cmpPT (o : OpL) : Nat := bits o.imm 0 7
/-- R184: PT = PF with PT not p0 is illegal. -/
def OpL.predsDiffer (o : OpL) : Bool := o.cmpPT != o.cmpPF || o.cmpPT == 0

/-- The CSR numbers with access RW (R29). -/
def csrWritable (n : Nat) : Bool :=
  n == 0x08 || n == 0x0B || n == 0x0C || n == 0x0D || n == 0x0E || n == 0x0F || n == 0x10 || n == 0x11

/-- R244: a W or X pane operand. The immediate form is any value below 1,024; the register form has bits 8:6 zero, and
bit 9 (the handle mark) zero unless `handle` admits it. -/
def paneOperand (handle : Bool) (x : Nat) : Bool :=
  x < 1024 || (x < 2048 && bits x 6 3 == 0 && (handle || bits x 9 1 == 0))

/-- Spaces W and X (R243). -/
def scratch (sp : Nat) : Bool := sp == 1 || sp == 2

/-- R244: the operand of a DE instruction by its space: 0 global (register form only), 1 W, 2 X, 3 Z (immediate form only). -/
def spaceOperand (sp x : Nat) : Bool :=
  if sp == 0 then 1024 ≤ x && x < 1088
  else if sp == 3 then x < 32
  else paneOperand false x

/-- R256: the legal MST destinations. -/
def mstLegal (o : OpMX) : Bool :=
  (o.chalf == 0 || o.fmt == 7) && (o.cb == 0 || o.fmt == 7) &&
  (if o.int == 0 then
    ((o.fmt == 1 || o.fmt == 2 || o.fmt == 3) && o.sgeo == 0) ||
    ((o.fmt == 4 || o.fmt == 5 || o.fmt == 6) && o.sgeo < 6) ||
    (o.fmt == 7 && (o.sgeo == 0 || (2 ≤ o.sgeo && o.sgeo < 6)))
  else (o.fmt == 8 || o.fmt == 6) && o.sgeo == 0 && o.tag == 0)

/-- R269: the DCOPY combinations of spaces, and MOD where the table says it must be 0; the handle form of SRC only from
X to W or X. -/
def dcopyLegal (o : OpDE) : Bool :=
  spaceOperand o.dsp o.dst &&
  (if o.ssp == 2 && scratch o.dsp then paneOperand true o.src else spaceOperand o.ssp o.src) &&
  (if scratch o.dsp then o.ssp < 3
   else o.mod == 0 && (if o.dsp == 3 then o.ssp == 0 else true))

/-- Whether an instruction is one its encoding can hold and its entry declares legal; every device event is. -/
def wf : Instr → Bool
  | .bundleRepetition => true
  | .stallBundle _ => true
  | .globalAccessComplete _ _ _ => true
  | .pcieCompletionTimeout _ => true
  | .pbr o => o.g < 128 && o.k < 8 && o.disp < 32768
  | .pbrx o => o.inRange && o.d < 8 && o.b == 0
  | .br o => o.inRange && o.d == 0 && o.a < 8 && o.b == 0
  | .brl o => o.inRange && o.d == 0 && o.a < 8 && o.b == 0
  | .loop o => o.inRange
  | .loopi o => o.inRange
  | .loopm o => o.inRange && o.cnt < 16
  | .lexit o => o.inRange && o.imm < 4
  | .sleep o => o.inRange && o.d == 0 && o.b < 2
  | .sleepWake _ => true
  | .waitp o => o.inRange && o.imm < 65536 && o.imm != 0
  | .bar o => o.inRange && o.imm < 2
  | .phase o => o.inRange && o.imm < 4
  | .trap o => o.inRange
  | .tret o => o.inRange && o.imm == 0
  | .sret o => o.inRange && o.imm == 0
  | .exit o => o.inRange && o.imm == 0
  | .yield o => o.inRange && o.imm == 0
  | .pand o => o.inRange
  | .por o => o.inRange
  | .pxor o => o.inRange
  | .pandn o => o.inRange
  | .pany o => o.inRange
  | .pall o => o.inRange
  | .pmov o => o.inRange && o.pb == 0
  | .add o => o.inRange
  | .sub o => o.inRange
  | .mul o => o.inRange
  | .mulh o => o.inRange
  | .mulhu o => o.inRange
  | .div o => o.inRange
  | .divu o => o.inRange
  | .rem o => o.inRange
  | .remu o => o.inRange
  | .min o => o.inRange
  | .max o => o.inRange
  | .minu o => o.inRange
  | .maxu o => o.inRange
  | .abs o => o.inRange && o.b == 0
  | .and o => o.inRange
  | .or o => o.inRange
  | .xor o => o.inRange
  | .andn o => o.inRange
  | .orn o => o.inRange
  | .shl o => o.inRange
  | .shr o => o.inRange
  | .sar o => o.inRange
  | .rotl o => o.inRange
  | .shli o => o.inRange
  | .shri o => o.inRange
  | .sari o => o.inRange
  | .clz o => o.inRange && o.b == 0
  | .ctz o => o.inRange && o.b == 0
  | .popc o => o.inRange && o.b == 0
  | .brev o => o.inRange && o.b == 0
  | .bfx o => o.inRange
  | .bfxu o => o.inRange
  | .bfi o => o.inRange
  | .fshl o => o.inRange
  | .fshr o => o.inRange
  | .movi o => o.g < 128 && o.d < 64 && o.imm < 4096
  | .movl o => o.inRange && o.a == 0 && o.b < 2
  | .addi o => o.inRange && o.b == 0
  | .cmp o => o.inRange && o.d == 0 && o.imm < 262144 && o.cmpCC < 11 && o.predsDiffer
  | .cmpi o => o.inRange && o.d == 0 && o.b == 0 && o.cmpCC < 11 && o.predsDiffer
  | .sel o => o.inRange && o.imm < 128
  | .fcmp o => o.inRange && o.d == 0 && o.imm < 262144 && o.cmpCC < 6 && o.predsDiffer
  | .ld o => o.inRange && o.b < 7
  | .st o => o.inRange && (o.b == 0 || o.b == 2 || o.b == 4 || o.b == 6)
  | .ldx o => o.inRange && o.b < 7
  | .stx o => o.inRange && (o.b == 0 || o.b == 2 || o.b == 4 || o.b == 6)
  | .atom o => o.inRange && bits o.imm 0 3 == 0 && bits o.imm 8 4 < 9
  | .cas o => o.inRange && bits o.imm 0 3 == 0 && bits o.imm 8 4 == 0
  | .csrr o => o.inRange && o.b == 0
  | .csrw o => o.inRange && o.b == 0 && csrWritable o.d
  | .mbxr o => o.inRange && o.a < 16 && o.b == 0
  | .mbxw o => o.inRange && o.d == 0
  | .cyc o => o.inRange && o.a == 0 && o.b == 0
  | .xmovaB o => o.inRange && o.d < 8 && o.b == 0
  | .xmovaV o => o.inRange && o.b == 1
  | .xmovaPair o => o.inRange && o.b == 2
  | .wget o => o.inRange && o.b == 0
  | .wrange o => o.inRange && o.d == 0
  | .fadd o => o.inRange
  | .fsub o => o.inRange
  | .fmul o => o.inRange
  | .ffma o => o.inRange
  | .fcvt o => o.inRange && o.b < 10
  | .vadd o => o.inRange
  | .vsub o => o.inRange
  | .vmul o => o.inRange
  | .vmulh o => o.inRange
  | .vmulhu o => o.inRange
  | .vmad o => o.inRange
  | .vmin o => o.inRange
  | .vmax o => o.inRange
  | .vminu o => o.inRange
  | .vmaxu o => o.inRange
  | .vabs o => o.inRange && o.b == 0
  | .vand o => o.inRange
  | .vor o => o.inRange
  | .vxor o => o.inRange
  | .vandn o => o.inRange
  | .vshl o => o.inRange
  | .vshr o => o.inRange
  | .vsar o => o.inRange
  | .vbfx o => o.inRange
  | .vbfxu o => o.inRange
  | .vbfi o => o.inRange
  | .vfshl o => o.inRange
  | .vfshr o => o.inRange
  | .vclz o => o.inRange && o.b == 0
  | .vpopc o => o.inRange && o.b == 0
  | .vcmp o => o.inRange
  | .vcmpi o => o.inRange
  | .vfcmp o => o.inRange
  | .vsel o => o.inRange
  | .vmovi o => o.bay < 8 && o.g < 128 && o.d < 64 && o.imm < 4096
  | .vaddsat o => o.inRange
  | .vsubsat o => o.inRange
  | .vdot4 o => o.inRange
  | .vdot4s o => o.inRange
  | .vdot2 o => o.inRange
  | .vfadd o => o.inRange
  | .vfsub o => o.inRange
  | .vfmul o => o.inRange
  | .vfma o => o.inRange
  | .vbfma o => o.inRange
  | .vfmin o => o.inRange
  | .vfmax o => o.inRange
  | .vfabs o => o.inRange && o.b == 0
  | .vfneg o => o.inRange && o.b == 0
  | .vfcvt o => o.inRange && o.b < 12
  | .vnrw o => o.inRange
  | .vwdn o => o.inRange
  | .vrcp o => o.inRange && o.b == 0
  | .vrsq o => o.inRange && o.b == 0
  | .vexp2 o => o.inRange && o.b == 0
  | .vlog2 o => o.inRange && o.b == 0
  | .vld o => o.inRange
  | .vst o => o.inRange
  | .vldg o => o.inRange
  | .vsts o => o.inRange
  | .vshuf o => o.inRange
  | .vred o => o.inRange && o.b < 11
  | .vscan o => o.inRange && o.b < 32 && o.b % 16 < 11
  | .vcntp o => o.inRange && o.b < 3
  | .vlane o => o.inRange && o.a == 0 && o.b < 2
  | .xmovvBay o => o.inRange && o.b < 8
  | .xmovvAll o => o.inRange && o.b == 8
  | .xmovvA o => o.inRange && 16 ≤ o.b && o.b < 32
  | .xmovvA2 o => o.inRange && 32 ≤ o.b && o.b < 40
  | .mma o => o.inRange && paneOperand false o.wp && paneOperand false o.xp
  | .mmaz o => o.inRange && paneOperand false o.wp && paneOperand false o.xp
  | .mmag o => o.inRange && paneOperand false o.wp && paneOperand false o.xp
  | .midx o => o.g < 128 && o.bay < 8 && o.va < 64 && o.half < 2
  | .mld o => o.inRange && paneOperand false o.xp && o.fmt == 0 && o.sgeo == 0 && o.tag == 0 && o.cb == 0 && o.chalf == 0 && o.int == 0
  | .mst o => o.inRange && paneOperand false o.xp && mstLegal o
  | .mzero o => o.inRange && o.ta == 0 && o.tb == 0 && o.col == 0 && o.int == 0 && o.mode < 3
  | .mtrn o => o.inRange && o.tb == 0 && o.col == 0 && o.int == 0 && o.mode == 0 && o.cnt == 0
  | .mrowmax o => o.inRange && o.tb == 0 && o.mode < 2 && o.cnt == 0
  | .mrowsum o => o.inRange && o.tb == 0 && o.mode < 2 && o.cnt == 0
  | .mscale o => o.inRange && o.mode < 3 && o.int == 0 && o.cnt == 0
  | .maddt o => o.inRange && o.col == 0 && o.mode == 0 && o.cnt == 0
  | .mwait o => o.g < 128 && o.one < 2 && o.td < 32 && (o.one == 1 || o.td == 0)
  | .mOpStart _ => true
  | .mOpComplete _ => true
  | .dcopy o => o.inRange && o.aux2 == 0 && (o.mod == 1 || o.aux == 0) && dcopyLegal o
  | .dcopy2 o => o.inRange && o.mod == 0 && o.aux2 == 0 && ((o.ssp == 0 && scratch o.dsp) || (scratch o.ssp && o.dsp == 0)) && spaceOperand o.ssp o.src && spaceOperand o.dsp o.dst
  | .dgath o => o.inRange && o.mod == 0 && o.ssp == 0 && o.dsp == 2 && spaceOperand 0 o.src && spaceOperand 2 o.dst
  | .dfill o => o.inRange && o.ssp == 0 && o.src == 0 && spaceOperand o.dsp o.dst && (if o.mod == 1 then scratch o.dsp else o.aux2 == 0)
  | .dtbl o => o.inRange && o.mod == 0 && o.ssp == 2 && o.dsp == 2 && spaceOperand 2 o.src && spaceOperand 2 o.dst && o.aux2 < 8
  | .dtblld o => o.inRange && o.rb == 0 && o.rc == 0 && o.pt == 0 && o.sub < 4
  | .dpref o => o.inRange && o.rd == 0 && o.rc == 0 && o.pt == 0 && o.sub == 0
  | .dflush o => o.inRange && o.rd == 0 && o.rc == 0 && o.pt == 0 && o.sub < 2
  | .shut o => o.inRange && o.ssp == 0 && o.src == 0 && scratch o.dsp && spaceOperand o.dsp o.dst && o.aux == 0 && o.aux2 == 0 && o.mod == 0
  | .openp o => o.inRange && o.ssp == 0 && o.src == 0 && scratch o.dsp && spaceOperand o.dsp o.dst && o.pr == 0 && o.aux == 0 && o.aux2 < 3 && o.mod == 0
  | .engineCompletion _ _ => true
  | .enq o => o.inRange && o.rd == 0 && o.rc == 0 && o.pt == 0 && o.sub == 0
  | .enqAck _ => true
  | .enqResend _ => true
  | .deq o => o.inRange && o.rd == 0 && o.rc == 0 && o.pt == 0 && o.sub == 0
  | .deqNb o => o.inRange && o.rd == 0 && o.rc == 0 && o.sub == 1
  | .qctlOpen o => o.inRange && o.rc == 0 && o.pt == 0 && o.sub == 0
  | .qctlClose o => o.inRange && o.rc == 0 && o.pt == 0 && o.sub == 1
  | .qctlBackoff o => o.inRange && o.rc == 0 && o.pt == 0 && o.sub == 2
  | .qctlDepth o => o.inRange && o.rc == 0 && o.pt == 0 && o.sub == 3
  | .tsub o => o.inRange && o.rb == 0 && o.rc == 0 && o.pt == 0 && o.sub == 0
  | .launch o => o.inRange && o.pt == 0 && o.sub == 0
  | .jraise o => o.inRange && o.rd == 0 && o.rc == 0 && o.pt == 0 && o.sub == 0
  | .jwait o => o.inRange && o.rb == 0 && o.rc == 0 && o.pt == 0 && o.sub == 0
  | .jdone o => o.inRange && o.rd == 0 && o.rc == 0 && o.pt == 0 && o.sub == 0
  | .jflags o => o.inRange && o.rb == 0 && o.rc == 0 && o.pt == 0 && o.sub == 0
  | .rsend o => o.inRange && (o.ssp == 0 || o.ssp == 2) && spaceOperand o.ssp o.src && o.dsp == 0 && o.dst == 0 && o.pr == 0 && o.aux2 == 0 && o.mod == 0
  | .rrecv o => o.inRange && o.ssp == 0 && o.src == 0 && o.dsp < 3 && spaceOperand o.dsp o.dst && o.pr == 0 && o.aux2 == 0 && o.mod == 0
  | .ringPairComplete _ _ _ _ => true
  | .pfxlook o => o.inRange && o.rc == 0 && o.pt == 0 && o.sub == 0
  | .pfxins o => o.inRange && o.pt == 0 && o.sub == 0
  | .trim o => o.inRange && o.rd == 0 && o.rc == 0 && o.pt == 0 && o.sub == 0
  | .pin o => o.inRange && o.rd == 0 && o.rc == 0 && o.pt == 0 && o.sub < 2
  | .stopen o => o.inRange && o.rb == 0 && o.rc == 0 && o.pt == 0 && o.sub == 0
  | .stclose o => o.inRange && o.rb == 0 && o.rc == 0 && o.pt == 0 && o.sub == 0
  | .strung o => o.inRange && o.rb == 0 && o.rc == 0 && o.pt == 0 && o.sub == 0
  | .frameRsv o => o.inRange && o.rb == 0 && o.rc == 0 && o.pt == 0 && o.sub == 0
  | .framePub o => o.inRange && o.rc == 0 && o.pt == 0 && o.sub == 1
  | .frameChk o => o.inRange && o.rb == 0 && o.rc == 0 && o.pt == 0 && o.sub == 2
  | .seedset o => o.inRange && o.rd == 0 && o.rc == 0 && o.pt == 0 && o.sub == 0
  | .cbset o => o.inRange && o.rd == 0 && o.rc == 0 && o.pt == 0 && o.sub == 0
  | .xlinvRng o => o.inRange && o.rd == 0 && o.pt == 0 && o.sub == 0
  | .xlinvAsid o => o.inRange && o.rd == 0 && o.pt == 0 && o.sub == 1
  | .xlinvAll o => o.inRange && o.rd == 0 && o.pt == 0 && o.sub == 2
  | .crset o => o.inRange && o.rb == 0 && o.rc == 0 && o.pt == 0 && o.sub == 0
  | .roleChangeDrainDone => true
  | .roleChangeFlushDone => true
  | .distributorSelection => true
  | .teamExit _ => true
  | .bankLoadComplete _ _ => true
  | .bankDrainComplete _ _ => true
  | .preemptionPoint _ => true
  | .swapEnd _ => true
  | .spillStep _ => true
  | .fillStep _ => true
  | .streamRelease _ => true
  | .deferredRelease _ => true
  | .ringStallTimeout _ _ => true
  | .encoderEntry _ => true
  | .encoderBandRead _ => true
  | .encoderRepeatFrame _ => true
  | .bitstreamRingSpace _ => true
  | .controlPeriodEnd _ _ => true
  | .clusterHalt _ _ => true
  | .patternChange _ _ => true
  | .dwellEnd _ _ => true
  | .droopStretch _ => true
  | .refreshOperation _ => true
  | .courseFailure _ => true
  | .firmwareEccError _ => true
  | .fltqptrHeadWrite _ => true
  | .fltqlostRead => true
  | .fdispResume _ _ => true
  | .fdispSkiprep _ _ => true
  | .fdispSkip _ _ => true
  | .fdispTerm _ _ => true
  | .fdispKill _ _ => true
  | .keystoneDisposition _ _ _ => true
  | .admlimWrite _ => true
  | .stctlPoison _ _ _ => true
  | .stctlIrq _ _ => true
  | .queueSuspend _ _ => true
  | .queueRank _ _ => true
  | .fpush _ => true
  | .hmbxWrite _ _ => true
  | .hintrWrite _ => true
  | .bar2errRead => true
  | .rpstatArm _ => true
  | .mctlReset => true
  | .mctlJclr => true
  | .mctlRload _ => true
  | .registerWrite _ _ _ _ => true
  | .bar2Read _ _ => true
  | .bar2Write _ _ => true
  | .bar2Atomicop _ _ _ _ _ => true
  | .ringWindowWrite _ _ _ _ => true
  | .revolutionTimeout _ _ _ => true
  | .ringLinkDown _ => true
  | .ideIntegrityFailure _ _ => true
  | .ideKm _ _ _ => true
  | .getVersion _ => true
  | .getCapabilities _ => true
  | .negotiateAlgorithms _ => true
  | .getDigests _ => true
  | .getCertificate _ _ _ _ => true
  | .challenge _ _ _ => true
  | .getMeasurements _ _ _ => true
  | .keyExchange _ _ _ => true
  | .finish _ _ => true
  | .powerOn => true
  | .hostHotReset => true
  | .stepWatchdog => true
  | .startStepEnd _ _ _ => true
  | .powerLoss => true
  | .roleChangeTestDone => true
  | .dOperationComplete _ => true
  | .msixVectorUnmask _ => true
  | .resizableBarWrite _ => true

/-- The well-formed instructions. -/
abbrev WellFormed (i : Instr) : Prop := wf i = true

end Sys2Proof
end

