-- ==== Sys2Proof/Decode.lean ====
section
/-! DEFINITION. Decoding of bundles and slot words (file 04 R119-R127, R132, R135, R139-R144; file 07 R242, R243, R300),
total on any bits, rejecting by name; and after it the encoder, from the same tables. -/

namespace Sys2Proof

/-- Why a slot word is not an instruction (R144): its opcode is unassigned, or a field of it is illegal. -/
inductive SlotReject where
  /-- R144: the opcode is not assigned; the illegal-opcode trap. Safe: it is the trap the manual names. -/
  | unassignedOpcode (op : Nat)
  /-- R7, R125, R127: a reserved, register or operand field is illegal; the illegal-encoding trap. Safe, as above. -/
  | illegalField
deriving DecidableEq, Repr

/-- Why a bundle is not legal (R144), with the word index or slot that TINFO reports. -/
inductive BundleReject where
  /-- The header or the fields of a slot: illegal encoding, TINFO the word index. -/
  | illegalEncoding (word : Nat)
  /-- An unassigned opcode: illegal opcode, TINFO the slot and the opcode. -/
  | illegalOpcode (slot op : Nat)
deriving DecidableEq, Repr

/-! Fields of the word formats. -/

/-- Bits 31:25 of a 32-bit slot word. -/
def op32 (w : Nat) : Nat := w / 33554432 % 128
/-- Bits 63:56 of a 64-bit slot word. -/
def op64 (w : Nat) : Nat := w / 72057594037927936 % 256
/-- GUARD, bits 24:18. -/
def fG (w : Nat) : Nat := w / 262144 % 128
/-- D, bits 17:12. -/
def fD (w : Nat) : Nat := w / 4096 % 64
/-- A, bits 11:6. -/
def fA (w : Nat) : Nat := w / 64 % 64
/-- B, bits 5:0. -/
def fB (w : Nat) : Nat := w % 64
/-- GUARD of a 64-bit word, bits 55:49. -/
def fG64 (w : Nat) : Nat := w / 562949953421312 % 128

def getG (w : Nat) : OpG := { g := fG w, d := fD w, a := fA w, b := fB w }
def getI (w : Nat) : OpI := { g := fG w, d := fD w, imm := w % 4096 }
def getB (w : Nat) : OpB := { g := fG w, k := w / 32768 % 8, disp := w % 32768 }
def getLp (w : Nat) : OpLp := { g := fG w, cnt := fD w, last := w % 4096 }
def getN (w : Nat) : OpN := { g := fG w, imm := w % 262144 }
def getQ (w : Nat) : OpQ := { pd := fG w, pa := w / 2048 % 128, pb := w / 16 % 128, part := w / 4 % 4 }
def getL (w hi : Nat) : OpL := { g := fG w, d := fD w, a := fA w, b := fB w, imm := hi % 4294967296 }
def getV (bay w : Nat) : OpV := { bay := bay, g := fG w, d := fD w, a := fA w, b := fB w }
def getVI (bay w : Nat) : OpVI := { bay := bay, g := fG w, d := fD w, imm := w % 4096 }
def getP (bay w : Nat) : OpP := { bay := bay, cc := op32 w % 8, pt := fG w, pf := fD w, a := fA w, b := fB w }
def getMA (w : Nat) : OpMA :=
  { g := fG64 w, td := w / 17592186044416 % 32, wp := w / 8589934592 % 2048, xp := w / 4194304 % 2048,
    kp := w / 262144 % 16, int := w / 131072 % 2 }
def getMX (w : Nat) : OpMX :=
  { g := fG64 w, t := w / 17592186044416 % 32, xp := w / 8589934592 % 2048, fmt := w / 536870912 % 16,
    sgeo := w / 67108864 % 8, tag := w / 65536 % 1024, cb := w / 16 % 4096, chalf := w / 8 % 2, int := w / 4 % 2 }
def getMT (w : Nat) : OpMT :=
  { g := fG64 w, td := w / 17592186044416 % 32, ta := w / 549755813888 % 32, tb := w / 17179869184 % 32,
    col := w / 268435456 % 64, mode := w / 67108864 % 4, int := w / 33554432 % 2, cnt := w / 1048576 % 32 }
def getMI (w : Nat) : OpMI :=
  { g := fG64 w, bay := w / 70368744177664 % 8, va := w / 1099511627776 % 64, half := w / 549755813888 % 2 }
def getMW (w : Nat) : OpMW := { g := fG64 w, one := w / 281474976710656 % 2, td := w / 8796093022208 % 32 }
def getDE (w : Nat) : OpDE :=
  { g := fG64 w, ssp := w / 140737488355328 % 4, dsp := w / 35184372088832 % 4, src := w / 17179869184 % 2048,
    dst := w / 8388608 % 2048, np := w / 524288 % 16, pr := w / 8192 % 64, aux := w / 128 % 64, aux2 := w / 2 % 64,
    mod := w % 2 }
def getDR (w : Nat) : OpDR :=
  { g := fG64 w, rd := w / 8796093022208 % 64, ra := w / 137438953472 % 64, rb := w / 2147483648 % 64,
    rc := w / 33554432 % 64, sub := w / 4194304 % 8, pt := w / 32768 % 128 }

/-! The bits of each format that are reserved whatever the instruction (R125, R242, R243). -/

def resQ (w : Nat) : Bool := w % 4 == 0
def resMA (w : Nat) : Bool := w % 131072 == 0
def resMX (w : Nat) : Bool := w % 4 == 0
def resMT (w : Nat) : Bool := w % 1048576 == 0
def resMI (w : Nat) : Bool := w % 549755813888 == 0
def resMW (w : Nat) : Bool := w % 8796093022208 == 0
def resDR (w : Nat) : Bool := w % 32768 == 0

/-- Accept a decoded instruction if its reserved bits are clear and it is well formed. -/
def accept (res : Bool) (i : Instr) : Except SlotReject Instr :=
  if res && wf i then .ok i else .error .illegalField

/-- The C-slot opcode map (R139). -/
def decodeC (w : Nat) : Except SlotReject Instr :=
  match op32 w with
  | 0x0 => accept true (.pbr (getB w))
  | 0x1 => accept true (.pbrx (getG w))
  | 0x2 => accept true (.br (getG w))
  | 0x3 => accept true (.brl (getG w))
  | 0x4 => accept true (.loop (getLp w))
  | 0x5 => accept true (.loopi (getLp w))
  | 0x6 => accept true (.loopm (getLp w))
  | 0x7 => accept true (.lexit (getN w))
  | 0x8 => accept true (.sleep (getG w))
  | 0x9 => accept true (.waitp (getN w))
  | 0xa => accept true (.bar (getN w))
  | 0xb => accept true (.phase (getN w))
  | 0xc => accept true (.trap (getN w))
  | 0xd => accept true (.tret (getN w))
  | 0xe => accept true (.sret (getN w))
  | 0xf => accept true (.exit (getN w))
  | 0x10 => accept true (.yield (getN w))
  | 0x18 => accept (resQ w) (.pand (getQ w))
  | 0x19 => accept (resQ w) (.por (getQ w))
  | 0x1a => accept (resQ w) (.pxor (getQ w))
  | 0x1b => accept (resQ w) (.pandn (getQ w))
  | 0x1c => accept (resQ w) (.pany (getQ w))
  | 0x1d => accept (resQ w) (.pall (getQ w))
  | 0x1e => accept (resQ w) (.pmov (getQ w))
  | op => .error (.unassignedOpcode op)

/-- The A-slot opcode map (R140); `hi` is the second word of the long form. -/
def decodeA (w hi : Nat) : Except SlotReject Instr :=
  match op32 w with
  | 0x0 => accept true (.add (getG w))
  | 0x1 => accept true (.sub (getG w))
  | 0x2 => accept true (.mul (getG w))
  | 0x3 => accept true (.mulh (getG w))
  | 0x4 => accept true (.mulhu (getG w))
  | 0x5 => accept true (.div (getG w))
  | 0x6 => accept true (.divu (getG w))
  | 0x7 => accept true (.rem (getG w))
  | 0x8 => accept true (.remu (getG w))
  | 0x9 => accept true (.min (getG w))
  | 0xa => accept true (.max (getG w))
  | 0xb => accept true (.minu (getG w))
  | 0xc => accept true (.maxu (getG w))
  | 0xd => accept true (.abs (getG w))
  | 0x10 => accept true (.and (getG w))
  | 0x11 => accept true (.or (getG w))
  | 0x12 => accept true (.xor (getG w))
  | 0x13 => accept true (.andn (getG w))
  | 0x14 => accept true (.orn (getG w))
  | 0x15 => accept true (.shl (getG w))
  | 0x16 => accept true (.shr (getG w))
  | 0x17 => accept true (.sar (getG w))
  | 0x18 => accept true (.rotl (getG w))
  | 0x19 => accept true (.shli (getG w))
  | 0x1a => accept true (.shri (getG w))
  | 0x1b => accept true (.sari (getG w))
  | 0x20 => accept true (.clz (getG w))
  | 0x21 => accept true (.ctz (getG w))
  | 0x22 => accept true (.popc (getG w))
  | 0x23 => accept true (.brev (getG w))
  | 0x24 => accept true (.bfx (getG w))
  | 0x25 => accept true (.bfxu (getG w))
  | 0x26 => accept true (.bfi (getG w))
  | 0x27 => accept true (.fshl (getG w))
  | 0x28 => accept true (.fshr (getG w))
  | 0x30 => accept true (.movi (getI w))
  | 0x38 => accept true (.csrr (getG w))
  | 0x39 => accept true (.csrw (getG w))
  | 0x3a => accept true (.mbxr (getG w))
  | 0x3b => accept true (.mbxw (getG w))
  | 0x3c => accept true (.cyc (getG w))
  | 0x3d =>
    if fB w == 0 then accept true (.xmovaB (getG w))
    else if fB w == 1 then accept true (.xmovaV (getG w))
    else accept true (.xmovaPair (getG w))
  | 0x3e => accept true (.wget (getG w))
  | 0x3f => accept true (.wrange (getG w))
  | 0x48 => accept true (.fadd (getG w))
  | 0x49 => accept true (.fsub (getG w))
  | 0x4a => accept true (.fmul (getG w))
  | 0x4b => accept true (.ffma (getG w))
  | 0x4c => accept true (.fcvt (getG w))
  | 0x60 => accept true (.movl (getL w hi))
  | 0x61 => accept true (.addi (getL w hi))
  | 0x62 => accept true (.cmp (getL w hi))
  | 0x63 => accept true (.cmpi (getL w hi))
  | 0x64 => accept true (.sel (getL w hi))
  | 0x65 => accept true (.fcmp (getL w hi))
  | 0x68 => accept true (.ld (getL w hi))
  | 0x69 => accept true (.st (getL w hi))
  | 0x6a => accept true (.ldx (getL w hi))
  | 0x6b => accept true (.stx (getL w hi))
  | 0x6c => accept true (.atom (getL w hi))
  | 0x6d => accept true (.cas (getL w hi))
  | op => .error (.unassignedOpcode op)

/-- A compare of bay `bay`: conditions 6 and 7 are unassigned opcodes (R141, R144). -/
def decodeCmp (w : Nat) (i : Instr) : Except SlotReject Instr :=
  if op32 w % 8 < 6 then accept true i else .error (.unassignedOpcode (op32 w))

/-- The V-slot opcode map (R141). -/
def decodeV (bay w : Nat) : Except SlotReject Instr :=
  if op32 w / 8 == 4 then decodeCmp w (.vcmp (getP bay w))
  else if op32 w / 8 == 5 then decodeCmp w (.vcmpi (getP bay w))
  else if op32 w / 8 == 6 then decodeCmp w (.vfcmp (getP bay w))
  else match op32 w with
  | 0x0 => accept true (.vadd (getV bay w))
  | 0x1 => accept true (.vsub (getV bay w))
  | 0x2 => accept true (.vmul (getV bay w))
  | 0x3 => accept true (.vmulh (getV bay w))
  | 0x4 => accept true (.vmulhu (getV bay w))
  | 0x5 => accept true (.vmad (getV bay w))
  | 0x6 => accept true (.vmin (getV bay w))
  | 0x7 => accept true (.vmax (getV bay w))
  | 0x8 => accept true (.vminu (getV bay w))
  | 0x9 => accept true (.vmaxu (getV bay w))
  | 0xa => accept true (.vabs (getV bay w))
  | 0x10 => accept true (.vand (getV bay w))
  | 0x11 => accept true (.vor (getV bay w))
  | 0x12 => accept true (.vxor (getV bay w))
  | 0x13 => accept true (.vandn (getV bay w))
  | 0x14 => accept true (.vshl (getV bay w))
  | 0x15 => accept true (.vshr (getV bay w))
  | 0x16 => accept true (.vsar (getV bay w))
  | 0x17 => accept true (.vbfx (getV bay w))
  | 0x18 => accept true (.vbfxu (getV bay w))
  | 0x19 => accept true (.vbfi (getV bay w))
  | 0x1a => accept true (.vfshl (getV bay w))
  | 0x1b => accept true (.vfshr (getV bay w))
  | 0x1c => accept true (.vclz (getV bay w))
  | 0x1d => accept true (.vpopc (getV bay w))
  | 0x38 => accept true (.vsel (getV bay w))
  | 0x39 => accept true (.vmovi (getVI bay w))
  | 0x3a => accept true (.vaddsat (getV bay w))
  | 0x3b => accept true (.vsubsat (getV bay w))
  | 0x3c => accept true (.vdot4 (getV bay w))
  | 0x3d => accept true (.vdot4s (getV bay w))
  | 0x3e => accept true (.vdot2 (getV bay w))
  | 0x40 => accept true (.vfadd (getV bay w))
  | 0x41 => accept true (.vfsub (getV bay w))
  | 0x42 => accept true (.vfmul (getV bay w))
  | 0x43 => accept true (.vfma (getV bay w))
  | 0x44 => accept true (.vbfma (getV bay w))
  | 0x45 => accept true (.vfmin (getV bay w))
  | 0x46 => accept true (.vfmax (getV bay w))
  | 0x47 => accept true (.vfabs (getV bay w))
  | 0x48 => accept true (.vfneg (getV bay w))
  | 0x49 => accept true (.vfcvt (getV bay w))
  | 0x4a => accept true (.vnrw (getV bay w))
  | 0x4b => accept true (.vwdn (getV bay w))
  | 0x50 => accept true (.vrcp (getV bay w))
  | 0x51 => accept true (.vrsq (getV bay w))
  | 0x52 => accept true (.vexp2 (getV bay w))
  | 0x53 => accept true (.vlog2 (getV bay w))
  | 0x58 => accept true (.vld (getV bay w))
  | 0x59 => accept true (.vst (getV bay w))
  | 0x5a => accept true (.vldg (getV bay w))
  | 0x5b => accept true (.vsts (getV bay w))
  | 0x60 => accept true (.vshuf (getV bay w))
  | 0x61 => accept true (.vred (getV bay w))
  | 0x62 => accept true (.vscan (getV bay w))
  | 0x63 => accept true (.vcntp (getV bay w))
  | 0x64 => accept true (.vlane (getV bay w))
  | 0x65 =>
    if fB w < 8 then accept true (.xmovvBay (getV bay w))
    else if fB w < 16 then accept true (.xmovvAll (getV bay w))
    else if fB w < 32 then accept true (.xmovvA (getV bay w))
    else accept true (.xmovvA2 (getV bay w))
  | op => .error (.unassignedOpcode op)

/-- The M-slot opcode map (R142). -/
def decodeM (w : Nat) : Except SlotReject Instr :=
  match op64 w with
  | 0x0 => accept (resMA w) (.mma (getMA w))
  | 0x1 => accept (resMA w) (.mmaz (getMA w))
  | 0x2 => accept (resMA w) (.mmag (getMA w))
  | 0x3 => accept (resMI w) (.midx (getMI w))
  | 0x8 => accept (resMX w) (.mld (getMX w))
  | 0x9 => accept (resMX w) (.mst (getMX w))
  | 0xa => accept (resMT w) (.mzero (getMT w))
  | 0xb => accept (resMT w) (.mtrn (getMT w))
  | 0x10 => accept (resMT w) (.mrowmax (getMT w))
  | 0x11 => accept (resMT w) (.mrowsum (getMT w))
  | 0x12 => accept (resMT w) (.mscale (getMT w))
  | 0x13 => accept (resMT w) (.maddt (getMT w))
  | 0x18 => accept (resMW w) (.mwait (getMW w))
  | op => .error (.unassignedOpcode op)

/-- The D-slot opcode map (R143). -/
def decodeD (w : Nat) : Except SlotReject Instr :=
  match op64 w with
  | 0x0 => accept true (.dcopy (getDE w))
  | 0x1 => accept true (.dcopy2 (getDE w))
  | 0x2 => accept true (.dgath (getDE w))
  | 0x3 => accept true (.dfill (getDE w))
  | 0x4 => accept true (.dtbl (getDE w))
  | 0x5 => accept (resDR w) (.dtblld (getDR w))
  | 0x6 => accept (resDR w) (.dpref (getDR w))
  | 0x7 => accept (resDR w) (.dflush (getDR w))
  | 0x10 => accept true (.shut (getDE w))
  | 0x11 => accept true (.openp (getDE w))
  | 0x20 => accept (resDR w) (.enq (getDR w))
  | 0x21 =>
    if (getDR w).sub == 0 then accept (resDR w) (.deq (getDR w))
    else accept (resDR w) (.deqNb (getDR w))
  | 0x22 =>
    if (getDR w).sub == 0 then accept (resDR w) (.qctlOpen (getDR w))
    else if (getDR w).sub == 1 then accept (resDR w) (.qctlClose (getDR w))
    else if (getDR w).sub == 2 then accept (resDR w) (.qctlBackoff (getDR w))
    else accept (resDR w) (.qctlDepth (getDR w))
  | 0x28 => accept (resDR w) (.tsub (getDR w))
  | 0x29 => accept (resDR w) (.launch (getDR w))
  | 0x2a => accept (resDR w) (.jraise (getDR w))
  | 0x2b => accept (resDR w) (.jwait (getDR w))
  | 0x2c => accept (resDR w) (.jdone (getDR w))
  | 0x2d => accept (resDR w) (.jflags (getDR w))
  | 0x30 => accept true (.rsend (getDE w))
  | 0x31 => accept true (.rrecv (getDE w))
  | 0x38 => accept (resDR w) (.pfxlook (getDR w))
  | 0x39 => accept (resDR w) (.pfxins (getDR w))
  | 0x3a => accept (resDR w) (.trim (getDR w))
  | 0x3b => accept (resDR w) (.pin (getDR w))
  | 0x40 => accept (resDR w) (.stopen (getDR w))
  | 0x41 => accept (resDR w) (.stclose (getDR w))
  | 0x42 => accept (resDR w) (.strung (getDR w))
  | 0x43 =>
    if (getDR w).sub == 0 then accept (resDR w) (.frameRsv (getDR w))
    else if (getDR w).sub == 1 then accept (resDR w) (.framePub (getDR w))
    else accept (resDR w) (.frameChk (getDR w))
  | 0xf0 => accept (resDR w) (.seedset (getDR w))
  | 0xf1 => accept (resDR w) (.cbset (getDR w))
  | 0xf2 =>
    if (getDR w).sub == 0 then accept (resDR w) (.xlinvRng (getDR w))
    else if (getDR w).sub == 1 then accept (resDR w) (.xlinvAsid (getDR w))
    else accept (resDR w) (.xlinvAll (getDR w))
  | 0xf3 => accept (resDR w) (.crset (getDR w))
  | op => .error (.unassignedOpcode op)

/-! Slots and layout. -/

/-- The slot number of R144: 0 C, 1 A, 2 + b bay b, 10 M, 11 D; none for a device event. -/
def slotOf : Instr → Option Nat
  | .bundleRepetition => none
  | .stallBundle _ => none
  | .globalAccessComplete _ _ _ => none
  | .pcieCompletionTimeout _ => none
  | .pbr _ => some 0
  | .pbrx _ => some 0
  | .br _ => some 0
  | .brl _ => some 0
  | .loop _ => some 0
  | .loopi _ => some 0
  | .loopm _ => some 0
  | .lexit _ => some 0
  | .sleep _ => some 0
  | .sleepWake _ => none
  | .waitp _ => some 0
  | .bar _ => some 0
  | .phase _ => some 0
  | .trap _ => some 0
  | .tret _ => some 0
  | .sret _ => some 0
  | .exit _ => some 0
  | .yield _ => some 0
  | .pand _ => some 0
  | .por _ => some 0
  | .pxor _ => some 0
  | .pandn _ => some 0
  | .pany _ => some 0
  | .pall _ => some 0
  | .pmov _ => some 0
  | .add _ => some 1
  | .sub _ => some 1
  | .mul _ => some 1
  | .mulh _ => some 1
  | .mulhu _ => some 1
  | .div _ => some 1
  | .divu _ => some 1
  | .rem _ => some 1
  | .remu _ => some 1
  | .min _ => some 1
  | .max _ => some 1
  | .minu _ => some 1
  | .maxu _ => some 1
  | .abs _ => some 1
  | .and _ => some 1
  | .or _ => some 1
  | .xor _ => some 1
  | .andn _ => some 1
  | .orn _ => some 1
  | .shl _ => some 1
  | .shr _ => some 1
  | .sar _ => some 1
  | .rotl _ => some 1
  | .shli _ => some 1
  | .shri _ => some 1
  | .sari _ => some 1
  | .clz _ => some 1
  | .ctz _ => some 1
  | .popc _ => some 1
  | .brev _ => some 1
  | .bfx _ => some 1
  | .bfxu _ => some 1
  | .bfi _ => some 1
  | .fshl _ => some 1
  | .fshr _ => some 1
  | .movi _ => some 1
  | .movl _ => some 1
  | .addi _ => some 1
  | .cmp _ => some 1
  | .cmpi _ => some 1
  | .sel _ => some 1
  | .fcmp _ => some 1
  | .ld _ => some 1
  | .st _ => some 1
  | .ldx _ => some 1
  | .stx _ => some 1
  | .atom _ => some 1
  | .cas _ => some 1
  | .csrr _ => some 1
  | .csrw _ => some 1
  | .mbxr _ => some 1
  | .mbxw _ => some 1
  | .cyc _ => some 1
  | .xmovaB _ => some 1
  | .xmovaV _ => some 1
  | .xmovaPair _ => some 1
  | .wget _ => some 1
  | .wrange _ => some 1
  | .fadd _ => some 1
  | .fsub _ => some 1
  | .fmul _ => some 1
  | .ffma _ => some 1
  | .fcvt _ => some 1
  | .vadd o => some (2 + o.bay)
  | .vsub o => some (2 + o.bay)
  | .vmul o => some (2 + o.bay)
  | .vmulh o => some (2 + o.bay)
  | .vmulhu o => some (2 + o.bay)
  | .vmad o => some (2 + o.bay)
  | .vmin o => some (2 + o.bay)
  | .vmax o => some (2 + o.bay)
  | .vminu o => some (2 + o.bay)
  | .vmaxu o => some (2 + o.bay)
  | .vabs o => some (2 + o.bay)
  | .vand o => some (2 + o.bay)
  | .vor o => some (2 + o.bay)
  | .vxor o => some (2 + o.bay)
  | .vandn o => some (2 + o.bay)
  | .vshl o => some (2 + o.bay)
  | .vshr o => some (2 + o.bay)
  | .vsar o => some (2 + o.bay)
  | .vbfx o => some (2 + o.bay)
  | .vbfxu o => some (2 + o.bay)
  | .vbfi o => some (2 + o.bay)
  | .vfshl o => some (2 + o.bay)
  | .vfshr o => some (2 + o.bay)
  | .vclz o => some (2 + o.bay)
  | .vpopc o => some (2 + o.bay)
  | .vcmp o => some (2 + o.bay)
  | .vcmpi o => some (2 + o.bay)
  | .vfcmp o => some (2 + o.bay)
  | .vsel o => some (2 + o.bay)
  | .vmovi o => some (2 + o.bay)
  | .vaddsat o => some (2 + o.bay)
  | .vsubsat o => some (2 + o.bay)
  | .vdot4 o => some (2 + o.bay)
  | .vdot4s o => some (2 + o.bay)
  | .vdot2 o => some (2 + o.bay)
  | .vfadd o => some (2 + o.bay)
  | .vfsub o => some (2 + o.bay)
  | .vfmul o => some (2 + o.bay)
  | .vfma o => some (2 + o.bay)
  | .vbfma o => some (2 + o.bay)
  | .vfmin o => some (2 + o.bay)
  | .vfmax o => some (2 + o.bay)
  | .vfabs o => some (2 + o.bay)
  | .vfneg o => some (2 + o.bay)
  | .vfcvt o => some (2 + o.bay)
  | .vnrw o => some (2 + o.bay)
  | .vwdn o => some (2 + o.bay)
  | .vrcp o => some (2 + o.bay)
  | .vrsq o => some (2 + o.bay)
  | .vexp2 o => some (2 + o.bay)
  | .vlog2 o => some (2 + o.bay)
  | .vld o => some (2 + o.bay)
  | .vst o => some (2 + o.bay)
  | .vldg o => some (2 + o.bay)
  | .vsts o => some (2 + o.bay)
  | .vshuf o => some (2 + o.bay)
  | .vred o => some (2 + o.bay)
  | .vscan o => some (2 + o.bay)
  | .vcntp o => some (2 + o.bay)
  | .vlane o => some (2 + o.bay)
  | .xmovvBay o => some (2 + o.bay)
  | .xmovvAll o => some (2 + o.bay)
  | .xmovvA o => some (2 + o.bay)
  | .xmovvA2 o => some (2 + o.bay)
  | .mma _ => some 10
  | .mmaz _ => some 10
  | .mmag _ => some 10
  | .midx _ => some 10
  | .mld _ => some 10
  | .mst _ => some 10
  | .mzero _ => some 10
  | .mtrn _ => some 10
  | .mrowmax _ => some 10
  | .mrowsum _ => some 10
  | .mscale _ => some 10
  | .maddt _ => some 10
  | .mwait _ => some 10
  | .mOpStart _ => none
  | .mOpComplete _ => none
  | .dcopy _ => some 11
  | .dcopy2 _ => some 11
  | .dgath _ => some 11
  | .dfill _ => some 11
  | .dtbl _ => some 11
  | .dtblld _ => some 11
  | .dpref _ => some 11
  | .dflush _ => some 11
  | .shut _ => some 11
  | .openp _ => some 11
  | .engineCompletion _ _ => none
  | .enq _ => some 11
  | .enqAck _ => none
  | .enqResend _ => none
  | .deq _ => some 11
  | .deqNb _ => some 11
  | .qctlOpen _ => some 11
  | .qctlClose _ => some 11
  | .qctlBackoff _ => some 11
  | .qctlDepth _ => some 11
  | .tsub _ => some 11
  | .launch _ => some 11
  | .jraise _ => some 11
  | .jwait _ => some 11
  | .jdone _ => some 11
  | .jflags _ => some 11
  | .rsend _ => some 11
  | .rrecv _ => some 11
  | .ringPairComplete _ _ _ _ => none
  | .pfxlook _ => some 11
  | .pfxins _ => some 11
  | .trim _ => some 11
  | .pin _ => some 11
  | .stopen _ => some 11
  | .stclose _ => some 11
  | .strung _ => some 11
  | .frameRsv _ => some 11
  | .framePub _ => some 11
  | .frameChk _ => some 11
  | .seedset _ => some 11
  | .cbset _ => some 11
  | .xlinvRng _ => some 11
  | .xlinvAsid _ => some 11
  | .xlinvAll _ => some 11
  | .crset _ => some 11
  | .roleChangeDrainDone => none
  | .roleChangeFlushDone => none
  | .distributorSelection => none
  | .teamExit _ => none
  | .bankLoadComplete _ _ => none
  | .bankDrainComplete _ _ => none
  | .preemptionPoint _ => none
  | .swapEnd _ => none
  | .spillStep _ => none
  | .fillStep _ => none
  | .streamRelease _ => none
  | .deferredRelease _ => none
  | .ringStallTimeout _ _ => none
  | .encoderEntry _ => none
  | .encoderBandRead _ => none
  | .encoderRepeatFrame _ => none
  | .bitstreamRingSpace _ => none
  | .controlPeriodEnd _ _ => none
  | .clusterHalt _ _ => none
  | .patternChange _ _ => none
  | .dwellEnd _ _ => none
  | .droopStretch _ => none
  | .refreshOperation _ => none
  | .courseFailure _ => none
  | .firmwareEccError _ => none
  | .fltqptrHeadWrite _ => none
  | .fltqlostRead => none
  | .fdispResume _ _ => none
  | .fdispSkiprep _ _ => none
  | .fdispSkip _ _ => none
  | .fdispTerm _ _ => none
  | .fdispKill _ _ => none
  | .keystoneDisposition _ _ _ => none
  | .admlimWrite _ => none
  | .stctlPoison _ _ _ => none
  | .stctlIrq _ _ => none
  | .queueSuspend _ _ => none
  | .queueRank _ _ => none
  | .fpush _ => none
  | .hmbxWrite _ _ => none
  | .hintrWrite _ => none
  | .bar2errRead => none
  | .rpstatArm _ => none
  | .mctlReset => none
  | .mctlJclr => none
  | .mctlRload _ => none
  | .registerWrite _ _ _ _ => none
  | .bar2Read _ _ => none
  | .bar2Write _ _ => none
  | .bar2Atomicop _ _ _ _ _ => none
  | .ringWindowWrite _ _ _ _ => none
  | .revolutionTimeout _ _ _ => none
  | .ringLinkDown _ => none
  | .ideIntegrityFailure _ _ => none
  | .ideKm _ _ _ => none
  | .getVersion _ => none
  | .getCapabilities _ => none
  | .negotiateAlgorithms _ => none
  | .getDigests _ => none
  | .getCertificate _ _ _ _ => none
  | .challenge _ _ _ => none
  | .getMeasurements _ _ _ => none
  | .keyExchange _ _ _ => none
  | .finish _ _ => none
  | .powerOn => none
  | .hostHotReset => none
  | .stepWatchdog => none
  | .startStepEnd _ _ _ => none
  | .powerLoss => none
  | .roleChangeTestDone => none
  | .dOperationComplete _ => none
  | .msixVectorUnmask _ => none
  | .resizableBarWrite _ => none

/-- R132: the opcodes of the A and D slots that are not repeatable (nor is any C-slot instruction). -/
def nonRepeatable (slot op : Nat) : Bool :=
  (slot == 1 && op == 0x39) ||
    (slot == 11 && (op == 0x22 || (0x28 ≤ op && op ≤ 0x2D) || (0x38 ≤ op && op ≤ 0x3B) || (0x40 ≤ op && op ≤ 0x43) || (0xF0 ≤ op && op ≤ 0xF3)))

/-- The header of a bundle (R119, R120). -/
structure Header where
  kind : Nat
  body : Nat
  energy : Nat
  stop : Bool
  rep : Nat
  stickyV : Bool
  stickyD : Bool
  stickyM : Bool
  pres : Nat
deriving DecidableEq, Repr

def getHeader (w : Nat) : Header :=
  { kind := bits w 28 4, body := bits w 24 4, energy := bits w 20 4, stop := bit w 19, rep := bits w 15 4,
    stickyV := bit w 14, stickyD := bit w 13, stickyM := bit w 12, pres := bits w 0 12 }

/-- R121: the only valid padding word. -/
def paddingWord : Nat := 0xF0000000

/-- One slot of a bundle: its slot number, the index of its first word, its instruction or why it has none. -/
structure Slot where
  slot : Nat
  word : Nat
  instr : Except SlotReject Instr

/-- The words of a bundle by index; a missing word reads 0 (the body length is checked before any is used). -/
def wordAt (ws : List Nat) (n : Nat) : Nat := ws.getD n 0

/-- The words of the A slot: 2 for the long form, opcodes 0x60 to 0x7F (R122). -/
def lenA (w : Nat) : Nat := if 96 ≤ op32 w then 2 else 1

/-- The C slot of a bundle, if present, at word 1 (R124). -/
def slotC (h : Header) (ws : List Nat) : List Slot :=
  if bit h.pres 0 then [{ slot := 0, word := 1, instr := decodeC (wordAt ws 1) }] else []

/-- The A slot, at word `n` (R124). -/
def slotA (h : Header) (ws : List Nat) (n : Nat) : List Slot :=
  if bit h.pres 1 then
    [{ slot := 1, word := n,
       instr := decodeA (wordAt ws n) (if lenA (wordAt ws n) == 2 then wordAt ws (n + 1) else 0) }]
  else []

/-- The bays from `b` on, at word `n`; `k` counts the bays left (R124). -/
def slotsV (h : Header) (ws : List Nat) : Nat → Nat → Nat → List Slot
  | 0, _, _ => []
  | k + 1, b, n =>
    if bit h.pres (2 + b) then
      { slot := 2 + b, word := n, instr := decodeV b (wordAt ws n) } :: slotsV h ws k (b + 1) (n + 1)
    else slotsV h ws k (b + 1) n

/-- The bays present. -/
def bayCount (h : Header) : Nat := ((List.range 8).filter (fun b => bit h.pres (2 + b))).length

/-- A 64-bit slot word: bits 31:0 first (R124). -/
def dword (ws : List Nat) (n : Nat) : Nat := wordAt ws n + 4294967296 * wordAt ws (n + 1)

/-- Where the A word stands. -/
def aWord (h : Header) : Nat := if bit h.pres 0 then 2 else 1
/-- Where the first bay word stands. -/
def vWord (h : Header) (ws : List Nat) : Nat :=
  aWord h + if bit h.pres 1 then lenA (wordAt ws (aWord h)) else 0
/-- Where the M word stands. -/
def mWord (h : Header) (ws : List Nat) : Nat := vWord h ws + bayCount h
/-- Where the D word stands. -/
def dWord (h : Header) (ws : List Nat) : Nat := mWord h ws + if bit h.pres 10 then 2 else 0
/-- R122: the required body length. -/
def bodyLen (h : Header) (ws : List Nat) : Nat := dWord h ws + (if bit h.pres 11 then 2 else 0) - 1

/-- The present slots in the order of R124. -/
def slotsOf (h : Header) (ws : List Nat) : List Slot :=
  slotC h ws ++ slotA h ws (aWord h) ++ slotsV h ws 8 0 (vWord h ws) ++
  (if bit h.pres 10 then [{ slot := 10, word := mWord h ws, instr := decodeM (dword ws (mWord h ws)) }] else []) ++
  (if bit h.pres 11 then [{ slot := 11, word := dWord h ws, instr := decodeD (dword ws (dWord h ws)) }] else [])

/-- The predicate bit sets (R135) an instruction writes: (predicate, 8 for S or the bay 0..7). Writes to p0 are
discarded and do not count. -/
def predWrites (i : Instr) : List (Nat × Nat) :=
  let lanes (p : Nat) : List (Nat × Nat) := (List.range 8).map (fun b => (p, b))
  let all (p : Nat) : List (Nat × Nat) := (p, 8) :: lanes p
  let part (p k : Nat) : List (Nat × Nat) := if k == 0 then all p else if k == 1 then [(p, 8)] else lanes p
  let raw : List (Nat × Nat) :=
    match i with
    | .pand o => part o.pd o.part
    | .por o => part o.pd o.part
    | .pxor o => part o.pd o.part
    | .pandn o => part o.pd o.part
    | .pany o => part o.pd o.part
    | .pall o => part o.pd o.part
    | .pmov o => part o.pd o.part
    | .cmp o => all o.cmpPT ++ all o.cmpPF
    | .cmpi o => all o.cmpPT ++ all o.cmpPF
    | .fcmp o => all o.cmpPT ++ all o.cmpPF
    | .wget o => all o.a
    | .vcmp o => [(o.pt, o.bay), (o.pf, o.bay)]
    | .vcmpi o => [(o.pt, o.bay), (o.pf, o.bay)]
    | .vfcmp o => [(o.pt, o.bay), (o.pf, o.bay)]
    | .deqNb o => all o.pt
    | _ => []
  raw.filter (fun x => x.1 != 0)

/-- R135: the word indices of slots whose predicate writes overlap those of an earlier slot of the bundle. -/
def overlaps : List (Nat × Nat) → List (Nat × Instr) → List Nat
  | _, [] => []
  | seen, (n, i) :: rest =>
    let ws := predWrites i
    if ws.any (fun x => seen.contains x) then n :: overlaps (seen ++ ws) rest else overlaps (seen ++ ws) rest

/-- The opcode of a slot's word. -/
def Slot.opcode (ws : List Nat) (x : Slot) : Nat := if x.slot < 10 then op32 (wordAt ws x.word) else op64 (dword ws x.word)

/-- The word indices at which a bundle with a good layout breaks an encoding rule (R132, R135, R144). -/
def encodingFaults (h : Header) (ws : List Nat) (sl : List Slot) : List Nat :=
  let good := sl.filterMap (fun s => match s.instr with | .ok i => some (s.word, i) | .error _ => none)
  let bad := sl.filterMap (fun s => match s.instr with | .error .illegalField => some s.word | _ => none)
  let sticky (k : Nat) : Bool := (2 ≤ k && k < 10 && h.stickyV) || (k == 10 && h.stickyM) || (k == 11 && h.stickyD)
  let once := sl.filter (fun x => nonRepeatable x.slot (x.opcode ws))
  let rep := if (h.rep != 0 && (bit h.pres 0 || !once.isEmpty)) || once.any (fun x => sticky x.slot) then [0] else []
  rep ++ bad ++ overlaps [] good

/-- The least of a list, if any. -/
def leastOf : List Nat → Option Nat
  | [] => none
  | x :: xs => match leastOf xs with | none => some x | some y => some (min x y)

/-- A decoded bundle. -/
structure Bundle where
  head : Header
  slots : List (Nat × Nat × Instr)
deriving DecidableEq, Repr

/-- Decode a bundle from its words, the header first (R119-R144). A reject carries what TINFO reports. -/
def decodeBundle (ws : List Nat) : Except BundleReject Bundle :=
  let h := getHeader (wordAt ws 0)
  if h.kind != 0 then .error (.illegalEncoding 0)
  else if h.body != bodyLen h ws then .error (.illegalEncoding 0)
  else
    let sl := slotsOf h ws
    match leastOf (encodingFaults h ws sl) with
    | some n => .error (.illegalEncoding n)
    | none =>
      match sl.filterMap (fun s => match s.instr with | .error (.unassignedOpcode op) => some (s.slot, op) | _ => none) with
      | (k, op) :: _ => .error (.illegalOpcode k op)
      | [] => .ok { head := h,
                    slots := sl.filterMap (fun s => match s.instr with | .ok i => some (s.slot, s.word, i) | .error _ => none) }

/-! The encoder. -/

def putG (op : Nat) (o : OpG) : Nat := op * 33554432 + o.g * 262144 + o.d * 4096 + o.a * 64 + o.b
def putI (op : Nat) (o : OpI) : Nat := op * 33554432 + o.g * 262144 + o.d * 4096 + o.imm
def putB (op : Nat) (o : OpB) : Nat := op * 33554432 + o.g * 262144 + o.k * 32768 + o.disp
def putLp (op : Nat) (o : OpLp) : Nat := op * 33554432 + o.g * 262144 + o.cnt * 4096 + o.last
def putN (op : Nat) (o : OpN) : Nat := op * 33554432 + o.g * 262144 + o.imm
def putQ (op : Nat) (o : OpQ) : Nat := op * 33554432 + o.pd * 262144 + o.pa * 2048 + o.pb * 16 + o.part * 4
def putL (op : Nat) (o : OpL) : Nat := op * 33554432 + o.g * 262144 + o.d * 4096 + o.a * 64 + o.b
def putV (op : Nat) (o : OpV) : Nat := op * 33554432 + o.g * 262144 + o.d * 4096 + o.a * 64 + o.b
def putVI (op : Nat) (o : OpVI) : Nat := op * 33554432 + o.g * 262144 + o.d * 4096 + o.imm
def putP (op : Nat) (o : OpP) : Nat := (op + o.cc) * 33554432 + o.pt * 262144 + o.pf * 4096 + o.a * 64 + o.b
def putMA (op : Nat) (o : OpMA) : Nat :=
  op * 72057594037927936 + o.g * 562949953421312 + o.td * 17592186044416 + o.wp * 8589934592 + o.xp * 4194304 +
    o.kp * 262144 + o.int * 131072
def putMX (op : Nat) (o : OpMX) : Nat :=
  op * 72057594037927936 + o.g * 562949953421312 + o.t * 17592186044416 + o.xp * 8589934592 + o.fmt * 536870912 +
    o.sgeo * 67108864 + o.tag * 65536 + o.cb * 16 + o.chalf * 8 + o.int * 4
def putMT (op : Nat) (o : OpMT) : Nat :=
  op * 72057594037927936 + o.g * 562949953421312 + o.td * 17592186044416 + o.ta * 549755813888 + o.tb * 17179869184 +
    o.col * 268435456 + o.mode * 67108864 + o.int * 33554432 + o.cnt * 1048576
def putMI (op : Nat) (o : OpMI) : Nat :=
  op * 72057594037927936 + o.g * 562949953421312 + o.bay * 70368744177664 + o.va * 1099511627776 + o.half * 549755813888
def putMW (op : Nat) (o : OpMW) : Nat :=
  op * 72057594037927936 + o.g * 562949953421312 + o.one * 281474976710656 + o.td * 8796093022208
def putDE (op : Nat) (o : OpDE) : Nat :=
  op * 72057594037927936 + o.g * 562949953421312 + o.ssp * 140737488355328 + o.dsp * 35184372088832 +
    o.src * 17179869184 + o.dst * 8388608 + o.np * 524288 + o.pr * 8192 + o.aux * 128 + o.aux2 * 2 + o.mod
def putDR (op : Nat) (o : OpDR) : Nat :=
  op * 72057594037927936 + o.g * 562949953421312 + o.rd * 8796093022208 + o.ra * 137438953472 + o.rb * 2147483648 +
    o.rc * 33554432 + o.sub * 4194304 + o.pt * 32768

/-- A 64-bit word as two, bits 31:0 first (R124). -/
def two (w : Nat) : List Nat := [w % 4294967296, w / 4294967296]

/-- The 32-bit words of an instruction's slot, in the order they stand in memory; a device event has none. -/
def encode : Instr → List Nat
  | .bundleRepetition => []
  | .stallBundle _ => []
  | .globalAccessComplete _ _ _ => []
  | .pcieCompletionTimeout _ => []
  | .pbr o => [putB 0x0 o]
  | .pbrx o => [putG 0x1 o]
  | .br o => [putG 0x2 o]
  | .brl o => [putG 0x3 o]
  | .loop o => [putLp 0x4 o]
  | .loopi o => [putLp 0x5 o]
  | .loopm o => [putLp 0x6 o]
  | .lexit o => [putN 0x7 o]
  | .sleep o => [putG 0x8 o]
  | .sleepWake _ => []
  | .waitp o => [putN 0x9 o]
  | .bar o => [putN 0xa o]
  | .phase o => [putN 0xb o]
  | .trap o => [putN 0xc o]
  | .tret o => [putN 0xd o]
  | .sret o => [putN 0xe o]
  | .exit o => [putN 0xf o]
  | .yield o => [putN 0x10 o]
  | .pand o => [putQ 0x18 o]
  | .por o => [putQ 0x19 o]
  | .pxor o => [putQ 0x1a o]
  | .pandn o => [putQ 0x1b o]
  | .pany o => [putQ 0x1c o]
  | .pall o => [putQ 0x1d o]
  | .pmov o => [putQ 0x1e o]
  | .add o => [putG 0x0 o]
  | .sub o => [putG 0x1 o]
  | .mul o => [putG 0x2 o]
  | .mulh o => [putG 0x3 o]
  | .mulhu o => [putG 0x4 o]
  | .div o => [putG 0x5 o]
  | .divu o => [putG 0x6 o]
  | .rem o => [putG 0x7 o]
  | .remu o => [putG 0x8 o]
  | .min o => [putG 0x9 o]
  | .max o => [putG 0xa o]
  | .minu o => [putG 0xb o]
  | .maxu o => [putG 0xc o]
  | .abs o => [putG 0xd o]
  | .and o => [putG 0x10 o]
  | .or o => [putG 0x11 o]
  | .xor o => [putG 0x12 o]
  | .andn o => [putG 0x13 o]
  | .orn o => [putG 0x14 o]
  | .shl o => [putG 0x15 o]
  | .shr o => [putG 0x16 o]
  | .sar o => [putG 0x17 o]
  | .rotl o => [putG 0x18 o]
  | .shli o => [putG 0x19 o]
  | .shri o => [putG 0x1a o]
  | .sari o => [putG 0x1b o]
  | .clz o => [putG 0x20 o]
  | .ctz o => [putG 0x21 o]
  | .popc o => [putG 0x22 o]
  | .brev o => [putG 0x23 o]
  | .bfx o => [putG 0x24 o]
  | .bfxu o => [putG 0x25 o]
  | .bfi o => [putG 0x26 o]
  | .fshl o => [putG 0x27 o]
  | .fshr o => [putG 0x28 o]
  | .movi o => [putI 0x30 o]
  | .movl o => [putL 0x60 o, o.imm]
  | .addi o => [putL 0x61 o, o.imm]
  | .cmp o => [putL 0x62 o, o.imm]
  | .cmpi o => [putL 0x63 o, o.imm]
  | .sel o => [putL 0x64 o, o.imm]
  | .fcmp o => [putL 0x65 o, o.imm]
  | .ld o => [putL 0x68 o, o.imm]
  | .st o => [putL 0x69 o, o.imm]
  | .ldx o => [putL 0x6a o, o.imm]
  | .stx o => [putL 0x6b o, o.imm]
  | .atom o => [putL 0x6c o, o.imm]
  | .cas o => [putL 0x6d o, o.imm]
  | .csrr o => [putG 0x38 o]
  | .csrw o => [putG 0x39 o]
  | .mbxr o => [putG 0x3a o]
  | .mbxw o => [putG 0x3b o]
  | .cyc o => [putG 0x3c o]
  | .xmovaB o => [putG 0x3d o]
  | .xmovaV o => [putG 0x3d o]
  | .xmovaPair o => [putG 0x3d o]
  | .wget o => [putG 0x3e o]
  | .wrange o => [putG 0x3f o]
  | .fadd o => [putG 0x48 o]
  | .fsub o => [putG 0x49 o]
  | .fmul o => [putG 0x4a o]
  | .ffma o => [putG 0x4b o]
  | .fcvt o => [putG 0x4c o]
  | .vadd o => [putV 0x0 o]
  | .vsub o => [putV 0x1 o]
  | .vmul o => [putV 0x2 o]
  | .vmulh o => [putV 0x3 o]
  | .vmulhu o => [putV 0x4 o]
  | .vmad o => [putV 0x5 o]
  | .vmin o => [putV 0x6 o]
  | .vmax o => [putV 0x7 o]
  | .vminu o => [putV 0x8 o]
  | .vmaxu o => [putV 0x9 o]
  | .vabs o => [putV 0xa o]
  | .vand o => [putV 0x10 o]
  | .vor o => [putV 0x11 o]
  | .vxor o => [putV 0x12 o]
  | .vandn o => [putV 0x13 o]
  | .vshl o => [putV 0x14 o]
  | .vshr o => [putV 0x15 o]
  | .vsar o => [putV 0x16 o]
  | .vbfx o => [putV 0x17 o]
  | .vbfxu o => [putV 0x18 o]
  | .vbfi o => [putV 0x19 o]
  | .vfshl o => [putV 0x1a o]
  | .vfshr o => [putV 0x1b o]
  | .vclz o => [putV 0x1c o]
  | .vpopc o => [putV 0x1d o]
  | .vcmp o => [putP 0x20 o]
  | .vcmpi o => [putP 0x28 o]
  | .vfcmp o => [putP 0x30 o]
  | .vsel o => [putV 0x38 o]
  | .vmovi o => [putVI 0x39 o]
  | .vaddsat o => [putV 0x3a o]
  | .vsubsat o => [putV 0x3b o]
  | .vdot4 o => [putV 0x3c o]
  | .vdot4s o => [putV 0x3d o]
  | .vdot2 o => [putV 0x3e o]
  | .vfadd o => [putV 0x40 o]
  | .vfsub o => [putV 0x41 o]
  | .vfmul o => [putV 0x42 o]
  | .vfma o => [putV 0x43 o]
  | .vbfma o => [putV 0x44 o]
  | .vfmin o => [putV 0x45 o]
  | .vfmax o => [putV 0x46 o]
  | .vfabs o => [putV 0x47 o]
  | .vfneg o => [putV 0x48 o]
  | .vfcvt o => [putV 0x49 o]
  | .vnrw o => [putV 0x4a o]
  | .vwdn o => [putV 0x4b o]
  | .vrcp o => [putV 0x50 o]
  | .vrsq o => [putV 0x51 o]
  | .vexp2 o => [putV 0x52 o]
  | .vlog2 o => [putV 0x53 o]
  | .vld o => [putV 0x58 o]
  | .vst o => [putV 0x59 o]
  | .vldg o => [putV 0x5a o]
  | .vsts o => [putV 0x5b o]
  | .vshuf o => [putV 0x60 o]
  | .vred o => [putV 0x61 o]
  | .vscan o => [putV 0x62 o]
  | .vcntp o => [putV 0x63 o]
  | .vlane o => [putV 0x64 o]
  | .xmovvBay o => [putV 0x65 o]
  | .xmovvAll o => [putV 0x65 o]
  | .xmovvA o => [putV 0x65 o]
  | .xmovvA2 o => [putV 0x65 o]
  | .mma o => two (putMA 0x0 o)
  | .mmaz o => two (putMA 0x1 o)
  | .mmag o => two (putMA 0x2 o)
  | .midx o => two (putMI 0x3 o)
  | .mld o => two (putMX 0x8 o)
  | .mst o => two (putMX 0x9 o)
  | .mzero o => two (putMT 0xa o)
  | .mtrn o => two (putMT 0xb o)
  | .mrowmax o => two (putMT 0x10 o)
  | .mrowsum o => two (putMT 0x11 o)
  | .mscale o => two (putMT 0x12 o)
  | .maddt o => two (putMT 0x13 o)
  | .mwait o => two (putMW 0x18 o)
  | .mOpStart _ => []
  | .mOpComplete _ => []
  | .dcopy o => two (putDE 0x0 o)
  | .dcopy2 o => two (putDE 0x1 o)
  | .dgath o => two (putDE 0x2 o)
  | .dfill o => two (putDE 0x3 o)
  | .dtbl o => two (putDE 0x4 o)
  | .dtblld o => two (putDR 0x5 o)
  | .dpref o => two (putDR 0x6 o)
  | .dflush o => two (putDR 0x7 o)
  | .shut o => two (putDE 0x10 o)
  | .openp o => two (putDE 0x11 o)
  | .engineCompletion _ _ => []
  | .enq o => two (putDR 0x20 o)
  | .enqAck _ => []
  | .enqResend _ => []
  | .deq o => two (putDR 0x21 o)
  | .deqNb o => two (putDR 0x21 o)
  | .qctlOpen o => two (putDR 0x22 o)
  | .qctlClose o => two (putDR 0x22 o)
  | .qctlBackoff o => two (putDR 0x22 o)
  | .qctlDepth o => two (putDR 0x22 o)
  | .tsub o => two (putDR 0x28 o)
  | .launch o => two (putDR 0x29 o)
  | .jraise o => two (putDR 0x2a o)
  | .jwait o => two (putDR 0x2b o)
  | .jdone o => two (putDR 0x2c o)
  | .jflags o => two (putDR 0x2d o)
  | .rsend o => two (putDE 0x30 o)
  | .rrecv o => two (putDE 0x31 o)
  | .ringPairComplete _ _ _ _ => []
  | .pfxlook o => two (putDR 0x38 o)
  | .pfxins o => two (putDR 0x39 o)
  | .trim o => two (putDR 0x3a o)
  | .pin o => two (putDR 0x3b o)
  | .stopen o => two (putDR 0x40 o)
  | .stclose o => two (putDR 0x41 o)
  | .strung o => two (putDR 0x42 o)
  | .frameRsv o => two (putDR 0x43 o)
  | .framePub o => two (putDR 0x43 o)
  | .frameChk o => two (putDR 0x43 o)
  | .seedset o => two (putDR 0xf0 o)
  | .cbset o => two (putDR 0xf1 o)
  | .xlinvRng o => two (putDR 0xf2 o)
  | .xlinvAsid o => two (putDR 0xf2 o)
  | .xlinvAll o => two (putDR 0xf2 o)
  | .crset o => two (putDR 0xf3 o)
  | .roleChangeDrainDone => []
  | .roleChangeFlushDone => []
  | .distributorSelection => []
  | .teamExit _ => []
  | .bankLoadComplete _ _ => []
  | .bankDrainComplete _ _ => []
  | .preemptionPoint _ => []
  | .swapEnd _ => []
  | .spillStep _ => []
  | .fillStep _ => []
  | .streamRelease _ => []
  | .deferredRelease _ => []
  | .ringStallTimeout _ _ => []
  | .encoderEntry _ => []
  | .encoderBandRead _ => []
  | .encoderRepeatFrame _ => []
  | .bitstreamRingSpace _ => []
  | .controlPeriodEnd _ _ => []
  | .clusterHalt _ _ => []
  | .patternChange _ _ => []
  | .dwellEnd _ _ => []
  | .droopStretch _ => []
  | .refreshOperation _ => []
  | .courseFailure _ => []
  | .firmwareEccError _ => []
  | .fltqptrHeadWrite _ => []
  | .fltqlostRead => []
  | .fdispResume _ _ => []
  | .fdispSkiprep _ _ => []
  | .fdispSkip _ _ => []
  | .fdispTerm _ _ => []
  | .fdispKill _ _ => []
  | .keystoneDisposition _ _ _ => []
  | .admlimWrite _ => []
  | .stctlPoison _ _ _ => []
  | .stctlIrq _ _ => []
  | .queueSuspend _ _ => []
  | .queueRank _ _ => []
  | .fpush _ => []
  | .hmbxWrite _ _ => []
  | .hintrWrite _ => []
  | .bar2errRead => []
  | .rpstatArm _ => []
  | .mctlReset => []
  | .mctlJclr => []
  | .mctlRload _ => []
  | .registerWrite _ _ _ _ => []
  | .bar2Read _ _ => []
  | .bar2Write _ _ => []
  | .bar2Atomicop _ _ _ _ _ => []
  | .ringWindowWrite _ _ _ _ => []
  | .revolutionTimeout _ _ _ => []
  | .ringLinkDown _ => []
  | .ideIntegrityFailure _ _ => []
  | .ideKm _ _ _ => []
  | .getVersion _ => []
  | .getCapabilities _ => []
  | .negotiateAlgorithms _ => []
  | .getDigests _ => []
  | .getCertificate _ _ _ _ => []
  | .challenge _ _ _ => []
  | .getMeasurements _ _ _ => []
  | .keyExchange _ _ _ => []
  | .finish _ _ => []
  | .powerOn => []
  | .hostHotReset => []
  | .stepWatchdog => []
  | .startStepEnd _ _ _ => []
  | .powerLoss => []
  | .roleChangeTestDone => []
  | .dOperationComplete _ => []
  | .msixVectorUnmask _ => []
  | .resizableBarWrite _ => []

/-- Decode the words of one slot. -/
def decodeSlot (slot : Nat) (ws : List Nat) : Except SlotReject Instr :=
  if slot == 0 then decodeC (wordAt ws 0)
  else if slot == 1 then decodeA (wordAt ws 0) (if lenA (wordAt ws 0) == 2 then wordAt ws 1 else 0)
  else if slot == 10 then decodeM (dword ws 0)
  else if slot == 11 then decodeD (dword ws 0)
  else decodeV (slot - 2) (wordAt ws 0)

/-- The first instruction among the slots tried, in order. -/
def firstSlot (ws : List Nat) : List Nat → Option (Nat × Instr)
  | [] => none
  | k :: ks => match decodeSlot k ws with
    | .ok i => some (k, i)
    | .error _ => firstSlot ws ks

/-- The slots a word of the opcode table can stand in: the table gives a 32-bit word no slot, and the C, A and V slots
share opcode numbers, so bay 0 is tried first, then A, then C; a wider word is an M or D word. -/
def slotsForBits (nbits : Nat) : List Nat := if nbits ≤ 32 then [2, 1, 0] else [10, 11]

/-- The words of an opcode-table word: the bits above `nbits` are zero. -/
def tableWords (nbits w : Nat) : List Nat := [w % 2 ^ nbits % 4294967296, w % 2 ^ nbits / 4294967296]

/-- The slot and the instruction an opcode-table word stands for. -/
def tableSlot (nbits w : Nat) : Option (Nat × Instr) :=
  if nbits == 0 then none else firstSlot (tableWords nbits w) (slotsForBits nbits)

/-- The instruction the decoder reads from an opcode-table word. -/
def decodeTableWord (nbits w : Nat) : Option Instr := (tableSlot nbits w).map (·.2)

/-- The bundle words that carry slot words `ws` in slot `k` alone, with STOP set (R119-R124). -/
def oneSlotBundle (k : Nat) (ws : List Nat) : List Nat :=
  let n := if k == 10 || k == 11 then 2 else if k == 1 then lenA (wordAt ws 0) else 1
  let pres := if k == 10 then 1024 else if k == 11 then 2048 else 2 ^ k
  (n * 16777216 + 524288 + pres) :: ws.take n

end Sys2Proof
end

