-- ==== Sys2Proof/Machine/Maps.lean ====
section
/-! DEFINITION. Tables with a default: sparse maps from numbers, and the bytes of device memory, both as sorted lists that
list no entry equal to what an unlisted key reads as. -/

namespace Sys2Proof.Machine

/-- A table indexed by number: the entries that differ from the table's default value, keys rising. -/
abbrev NMap (α : Type) := List (Nat × α)

/-- The entry of key `k`, or `d` where the table lists none. -/
def NMap.get {α : Type} (d : α) (m : NMap α) (k : Nat) : α :=
  match m with
  | [] => d
  | (j, v) :: r => if j = k then v else NMap.get d r k

/-- Drop the entry of key `k`. -/
def NMap.erase {α : Type} (m : NMap α) (k : Nat) : NMap α := m.filter (fun p => p.1 != k)

/-- Put an entry at its place in a table that does not list its key. -/
def NMap.insert {α : Type} (k : Nat) (v : α) : NMap α → NMap α
  | [] => [(k, v)]
  | (j, w) :: r => if k < j then (k, v) :: (j, w) :: r else (j, w) :: NMap.insert k v r

/-- Set the entry of key `k`, keeping the canonical form: the default value is not listed. -/
def NMap.set {α : Type} [DecidableEq α] (d : α) (m : NMap α) (k : Nat) (v : α) : NMap α :=
  if v = d then NMap.erase m k else NMap.insert k v (NMap.erase m k)

/-- Apply a function to the entry of key `k`. -/
def NMap.upd {α : Type} [DecidableEq α] (d : α) (m : NMap α) (k : Nat) (f : α → α) : NMap α :=
  NMap.set d m k (f (NMap.get d m k))

/-- The entries from `base` on of a list of values, without those equal to the default. -/
def NMap.entries {α : Type} [DecidableEq α] (d : α) : Nat → List α → NMap α
  | _, [] => []
  | k, v :: r => if v = d then NMap.entries d (k + 1) r else (k, v) :: NMap.entries d (k + 1) r

/-- Set the keys `base`, `base + 1`, … to the values of a list. -/
def NMap.setList {α : Type} [DecidableEq α] (d : α) (m : NMap α) (base : Nat) (vs : List α) : NMap α :=
  m.filter (fun p => p.1 < base) ++ NMap.entries d base vs ++ m.filter (fun p => base + vs.length ≤ p.1)

/-- The entries of the keys from `base` to `base + n - 1`, in order. -/
def NMap.getList {α : Type} (d : α) (m : NMap α) (base n : Nat) : List α :=
  let near := m.filter (fun p => base ≤ p.1 && p.1 < base + n)
  (List.range n).map (fun i => NMap.get d near (base + i))

/-- Apply a function to every entry of a table, for a function that keeps the default. -/
def NMap.mapAll {α : Type} [DecidableEq α] (d : α) (m : NMap α) (f : Nat → α → α) : NMap α :=
  (m.map (fun p => (p.1, f p.1 p.2))).filter (fun p => decide (p.2 ≠ d))

/-- The canonical form of a table: keys strictly rising, no entry equal to the default. -/
def NMap.wf {α : Type} [DecidableEq α] (d : α) : NMap α → Bool
  | [] => true
  | (_, v) :: [] => v != d
  | (j, v) :: (k, w) :: r => v != d && j < k && NMap.wf d ((k, w) :: r)

/-- The keys a table lists. -/
def NMap.keys {α : Type} (m : NMap α) : List Nat := m.map (·.1)

/-- Device memory by physical address (file 18 R450). An unlisted byte reads as zero: start-up writes every byte of memory
with zero (file 20 R475, step 6). -/
abbrev Memory := List Host.Cell

/-- What a byte that memory does not list reads as (R475). -/
def Memory.unlisted : Byte := 0

/-- One byte of memory. -/
def Memory.read (m : Memory) (a : Nat) : Byte := NMap.get Memory.unlisted m a

/-- Write one byte of memory. -/
def Memory.write (m : Memory) (a : Nat) (b : Byte) : Memory := NMap.set Memory.unlisted m a b

/-- Write a run of bytes from `a` upward. -/
def Memory.writeList (m : Memory) : Nat → List Byte → Memory
  | _, [] => m
  | a, b :: r => Memory.writeList (Memory.write m a b) (a + 1) r

/-- The canonical form of memory. -/
def Memory.wf (m : Memory) : Bool := NMap.wf Memory.unlisted m

/-- The little-endian number a list of bytes holds (file 00 R6). -/
def leNat : List Byte → Nat
  | [] => 0
  | b :: r => b.toNat + 256 * leNat r

/-- The `n` little-endian bytes of a number. -/
def leBytes : Nat → Nat → List Byte
  | 0, _ => []
  | n + 1, x => BitVec.ofNat 8 x :: leBytes n (x / 256)

end Sys2Proof.Machine
end

