-- ==== Sys2Proof/Machine/State.lean ====
section
/-! DEFINITION. The state of the Glarad G9 as plain data, and the state at plinth reset. Every piece of state INVENTORY.md
lists has its field here; a field marked "model" is the model's own and no state of the manual. -/

namespace Sys2Proof.Machine

/-- A virtual address, a branch target or a program counter: 56 bits (file 01 R25, file 03 R81). -/
abbrev VA := BitVec 56

/-- One level of the loop stack (file 05 R161). `frozen`: present at trap entry while TMODE is 1 (R166). -/
structure LoopLevel where
  start : VA
  last : VA
  remaining : Nat
  frozen : Bool := false
deriving DecidableEq, Repr

/-- The registers that the group check and the scoreboard know (file 04 R134, R135). -/
inductive Reg where
  | a (n : Nat)
  | b (n : Nat)
  | d (n : Nat)
  | v (bay n : Nat)
  | latch
  /-- The S bit of a predicate. -/
  | ps (n : Nat)
  /-- The sixteen lane bits of one bay of a predicate. -/
  | pl (n bay : Nat)
deriving DecidableEq, Repr

/-- Destination of a transom copy (file 04 R137). -/
inductive TransomDest where
  /-- A branch-target register; `fetch`: PBRX starts fetching (file 05 R156). -/
  | b (n : Nat) (fetch : Bool)
  /-- One v register of one bay, sixteen lanes and the tag. -/
  | v (bay n : Nat)
  | a (n : Nat)
  /-- Half of the index latch (file 07 R254). -/
  | latch (half : Nat)
deriving DecidableEq, Repr

/-- A transom write in flight (file 04 R137): lanes, or one value for a scalar destination. -/
structure TransomWrite where
  due : Nat
  dest : TransomDest
  vals : List Nat
  tag : Nat := 0
deriving DecidableEq, Repr

/-- The record of a sticky slot: the operation and the effective address of each address operand (file 04 R129). -/
structure Sticky where
  instr : Instr
  addrs : List Nat
deriving DecidableEq, Repr

/-- A strand's own store to a byte of normal or write-combining memory (file 03 R94, R96): its value, the scope at which it
was published (`none`: pending), and whether it is later than the strand's last renewal (R98). -/
structure OwnStore where
  val : Byte
  /-- The virtual address of the store. -/
  start : Nat
  scope : Option Nat
  fresh : Bool
  /-- Its place in the strand's program order: stores to one byte may stand under several addresses (file 03 R84, file 14 R389). -/
  seq : Nat := 0
deriving DecidableEq, Repr

/-- A renewal of a view (file 03 R96, R97): the length of the publication log at its renewal point, its scope, and the
place of the agent at that point. -/
structure Renewal where
  pos : Nat
  scope : Nat
  course : Nat
  core : Nat
  /-- A renewal of the fetch view for a range of addresses only (file 14 R398): from, to. -/
  range : Option (Nat × Nat) := none
deriving DecidableEq, Repr

/-- A request that leaves the core after a publication (file 03 R102, file 15 R414), with the register values it read at issue. -/
inductive Request where
  /-- The descriptor's address. -/
  | tsub (va : Nat)
  /-- Launch header, JCB, and the register with queue and cost. -/
  | launch (hdr jcb v : Nat)
  /-- JCB, where it lies, and flags. -/
  | jdone (va pa flags : Nat)
  /-- Key, first page and count. -/
  | pfxins (key va n : Nat)
  /-- An atomic that releases: its address, where it lies, its page's type and leaf, and its operands. -/
  | atom (o : OpL) (cas : Bool) (va pa ty leaf b d : Nat)
deriving DecidableEq, Repr

/-- Where the result of an outstanding operation goes (files 03, 07 R302). -/
inductive PendDest where
  | a (n : Nat)
  | p (n : Nat)
  /-- WGET: an A register and a predicate (file 05 R199). -/
  | ap (a : Nat) (p : Nat)
  | none
deriving DecidableEq, Repr

/-- An outstanding result: a load or atomic whose value returns from its home (file 08 R306), or a result of a plinth service
(file 07 R302). `pcie`: the value comes with the completion (file 03 R93). -/
structure Pending where
  /-- True for LD, ATOM, CAS; false for a plinth service. -/
  global : Bool
  pcie : Bool := false
  dest : PendDest
  value : Nat
  ok : Bool := true
  /-- Bytes and sign extension of a load, for a value that comes with the completion. -/
  size : Nat := 8
  signed : Bool := false
  va : Nat := 0
  due : Nat := 0
  /-- Bundle address and repetition, for a fault (R93). -/
  pc : VA := 0
  rep : Nat := 0
  /-- False: the result is of an operation that waits at its service (STOPEN during a role change, R372; CRSET, R371). -/
  done : Bool := true
  /-- Scope of the renewal that follows an acquiring atomic through a PCIe window (file 03 R107). -/
  acq : Option Nat := none
  /-- The access has failed while its strand was parked: the fault is taken when the strand is resumed (R93). -/
  failed : Bool := false
  /-- Code of that fault. -/
  code : Nat := 0x46
  /-- A request whose publication is still to come, at `due`: its scope, and the stores that it publishes (file 15 R414). -/
  req : Option Request := none
  scope : Nat := 2
  stores : List (Nat × OwnStore) := []
deriving DecidableEq, Repr

/-- An entry of a queue or of a replay window (file 07 R279): 64 bytes, the queue with its generation, the sender's ASID, the
length of the publication log at its ENQ (file 11 R357), and the cycle before which it is not resent. -/
structure QEntry where
  queue : Nat
  gen : Nat
  asid : Nat
  data : List Byte
  pos : Nat
  notBefore : Nat := 0
  /-- A negative acknowledgement stands; it is to be resent. -/
  nacked : Bool := false
deriving DecidableEq, Repr

/-- What a blocked strand waits for (file 01 R16; file 05 R167-R171; file 07). -/
inductive Wait where
  | sleep (wake : Nat)
  | mbx (mask : Nat)
  | bar (launch : Bool)
  /-- A pane whose shutter is E under a command (file 03 R110). -/
  | pane (item : Nat)
  | enq
  | deq (queue : Nat)
  /-- JWAIT on the JCB at a virtual address (file 07 R287). -/
  | jcb (va : Nat)
  /-- Issue stalls without a switch: a full M or D queue, MWAIT (R247, R262). -/
  | stall
  /-- A pane or tile that is not yet in its place: the same, and the spill unit takes it first (file 15 R418). -/
  | place (item : Nat)
  /-- A boundary in progress: the bundle takes effect at its publication point (file 15 R414). -/
  | until (t : Nat)
deriving DecidableEq, Repr

/-- Whether a strand runs (file 01 R42, file 05 R175, file 15 R404, R405). -/
inductive Run where
  | ready
  | blocked (w : Wait)
  | parked
  | exited
  | terminated
deriving DecidableEq, Repr

/-- The fault that a parked strand's record describes (file 15 R401): code, OCODE, TINFO, and TEPC, TREP of the record. -/
structure ParkedFault where
  code : Nat
  ocode : Nat := 0
  tinfo : Word := 0
  tepc : VA := 0
  trep : Nat := 0
  /-- Pending disposition for a saved context (R405). -/
  disp : Option Nat := none
deriving DecidableEq, Repr

/-- A strand: every item of file 01 R21, R25 that is its own. -/
structure Strand where
  pc : VA := 0
  a : NMap Word := []
  b : NMap VA := []
  d : NMap Word := []
  /-- Lane l of v register n of bay y, keyed (64 y + n) 16 + l. -/
  v : NMap Lane := []
  /-- Rotation tag of v register n of bay y, keyed 64 y + n (file 02 R73). -/
  vtag : NMap Nat := []
  ps : NMap Bool := []
  pl : NMap (BitVec 128) := []
  loops : List LoopLevel := []
  latch : NMap Nat := []
  sticky : NMap (Option Sticky) := []
  rep : Nat := 0
  grpPos : Nat := 0
  grpStart : VA := 0
  /-- Bundle addresses already checked in this group. -/
  grpChecked : Bool := false
  transom : List TransomWrite := []
  /-- Cycle at which a register of the scoreboard is written (file 04 R136). -/
  ready : List (Reg × Nat) := []
  /-- V registers with an ordinary write under way: key 64 bay + n, the cycle at which it is written, the lanes it writes (R137). -/
  masked : List (Nat × Nat × List Nat) := []
  mbx : NMap Word := []
  arrive : BitVec 16 := 0
  wid : Word := 0
  level : Nat := 0
  tmode : Bool := false
  wnext : Word := 0
  wend : Word := 0
  /-- Address and repetition of the bundle the strand retired last, for a fault that names it (file 01 R34). -/
  lastPc : VA := 0
  lastRep : Nat := 0
  tepc : VA := 0
  trep : BitVec 4 := 0
  tcause : BitVec 8 := 0
  tinfo : Word := 0
  tkeep : NMap Word := []
  flags : BitVec 7 := 0
  trapen : BitVec 7 := 0
  run : Run := .ready
  parked : Option ParkedFault := none
  /-- Hardware strand slot on its core (file 01 R29). -/
  slot : Nat := 0
  /-- Own stores by virtual byte address, and the number of stores made. -/
  stores : NMap (Option OwnStore) := []
  storeSeq : Nat := 0
  /-- View renewals, newest first. -/
  renew : List Renewal := []
  /-- Renewals of the instruction-fetch view, newest first (file 05 R159). -/
  irenew : List Renewal := []
  /-- For a physical byte, one more than the log position of the newest publication that an access of the strand returned: its loads
return nothing earlier (R98, R106). -/
  seen : NMap Nat := []
  /-- Cycle by which the strand's device and strongly ordered accesses to GDDR7 are performed (R96, R306). -/
  devDone : Nat := 0
  window : List QEntry := []
  /-- Issue count of the strand, and the count at the last write of each b register (file 05 R158). -/
  issues : Nat := 0
  /-- Cycle before which no bundle of the strand issues: an operand that is awaited, a boundary, a full queue. -/
  notBefore : Nat := 0
  /-- Publication point of the boundary that the strand's bundle carries, while it is in progress (file 15 R414). -/
  bnd : Option Nat := none
  bwrite : NMap Nat := []
  /-- The fetch view as it stood when a b register was last written with a fetch, and the target at which a fetch of that age
  may still deliver (file 05 R159). -/
  bfetch : NMap (List Renewal) := []
  stale : Option (VA × List Renewal) := none
  pend : List Pending := []
deriving DecidableEq, Repr

/-- Who closed a pane's shutter (file 03 R108-R112; file 07 R277, R289). -/
inductive Shutter where
  | t
  /-- Closed by engine commands: incomplete commands of the team name the pane. -/
  | cmd
  /-- Closed by SHUT. -/
  | shut
  /-- Left closed by a failed ring pair (R289): its port and step tag. -/
  | ringFailed (port tag : Nat)
deriving DecidableEq, Repr

/-- A segment table of a table slot (file 07 R274). -/
structure Table where
  x0 : Nat
  sh : Int
  lomode : Nat
  himode : Nat
  clo : Nat
  chi : Nat
  segs : List (Nat × Nat)
deriving DecidableEq, Repr

/-- An engine command, queued or running (file 07 R263): the instruction, the addresses its operands named at issue, and the
register values it read at issue. -/
structure Cmd where
  id : Nat
  strand : Nat
  op : Instr
  src : Nat := 0
  dst : Nat := 0
  aux : Word := 0
  aux2 : Word := 0
  n : Nat := 1
  /-- Pane and tile items it names (tile t: t; W pane p: 32 + p; X pane p: 1056 + p). -/
  items : List Nat := []
  /-- Source pane of another team, by handle (file 07 R278): launch handle, core-in-launch, buffer, pane. -/
  handle : Option (Nat × Nat × Nat × Nat) := none
  asid : Nat := 0
  issue : Nat := 0
  promise : Option Nat := none
  /-- Length of the publication log when its bundle issued (R111). -/
  pos : Nat := 0
  /-- Cycle on which the engine is to start it (file 08 R308), and the cycle before which it does not complete. -/
  start : Nat := 0
  due : Nat := 0
  /-- Ring commands: the port and the step tag. -/
  ring : Option (Nat × Nat) := none
deriving DecidableEq, Repr

/-- An operation of the M queue (file 07 R247). -/
structure MOp where
  strand : Nat
  op : Instr
  tile : Nat := 0
  w : Nat := 0
  x : Nat := 0
  /-- The index latch as it stood at issue (R253). -/
  latch : NMap Nat := []
  ready : Nat := 0
  /-- Engine commands with a lower number come before it (R109, R113). -/
  before : Nat := 0
  /-- An MLD whose first pane was not ready at issue (R255). -/
  deferred : Bool := false
  /-- The descriptors of its open X and W panes at issue: items it reads as they stood, items it writes as it set them when its bundle
  retired (file 02 R72). -/
  descs : List (Nat × Nat) := []
deriving DecidableEq, Repr

/-- The M operation running, with the results it writes when it completes (file 07 R249). -/
structure MRun where
  op : MOp
  done : Nat
  /-- Units charged per counted cycle (file 08 R316). -/
  rate : Nat := 0
  /-- Whole tiles written, 4,096 words each. -/
  tiles : List (Nat × List Lane) := []
  /-- X panes written: pane, bytes, margin bytes, descriptor. -/
  panes : List (Nat × List Byte × List Byte × Nat) := []
  /-- Discard marks set or cleared. -/
  marks : List (Nat × Bool) := []
  flags : BitVec 7 := 0
deriving DecidableEq, Repr

/-- Where a team is (file 15 R410, R411, R413, R422). -/
inductive TeamStatus where
  /-- The context slot is free. -/
  | none
  /-- Fresh or resumed, loading into a shadow bank. -/
  | loading
  | bound
  | saved
deriving DecidableEq, Repr

/-- A team (file 01 R18, R25), keyed by its context slot (file 15 R409). -/
structure Team where
  status : TeamStatus := .none
  /-- Launch identifier in the table `launches` (model), 0 for a supervisor context. -/
  launch : Nat := 0
  /-- Launch handle (file 05 R193). -/
  lh : Nat := 0
  idx : Nat := 0
  asid : Nat := 0
  handler : VA := 0
  tiles : Nat := 0
  wp : Nat := 0
  xp : Nat := 0
  nstr : Nat := 1
  /-- Core: 32 course + 4 cluster + core. -/
  core : Nat := 0
  /-- Order of binding, for "the youngest first" (file 11 R347). -/
  born : Nat := 0
  tile : NMap Lane := []
  /-- Tiles whose void flag is clear (file 07 R250). -/
  tvalid : NMap Bool := []
  tdisc : NMap Bool := []
  /-- Pane bytes: buffer b (1 W, 2 X), byte address a, keyed 4194304 b + a. -/
  pane : NMap Byte := []
  /-- Margin bytes: pane item i, byte j, keyed 512 i + j. -/
  margin : NMap Byte := []
  desc : NMap Nat := []
  shut : NMap Shutter := []
  pdisc : NMap Bool := []
  tbl : NMap (Option Table) := []
  cmds : List Cmd := []
  /-- Strands that have arrived at the pending team barrier (file 05 R169). -/
  barArr : List Nat := []
  /-- Departing items still on the old core; items not yet filled on the new core (file 15 R417, R421). -/
  toSpill : List Nat := []
  spillCore : Nat := 0
  /-- Cycle of its last swap-out, for a handle read in progress then (R419). -/
  since : Nat := 0
  toFill : List Nat := []
  /-- Items whose physical place is still held by a departing item of another team: item, team, item (R418). -/
  hold : List (Nat × Nat × Nat) := []
  /-- Its gang is pre-empted, but a swap of its core was already past its point: it goes in the next (file 11 R351). -/
  owed : Bool := false
  /-- Boundary abandoned by a pre-emption, re-run at resume (R414): strands. -/
  rerun : List Nat := []
  /-- Saved by a role change: its items come whole with its context, not lazily (file 13 R371, file 15 R421). -/
  whole : Bool := false
deriving DecidableEq, Repr

/-- State of a shadow bank (file 15 R411). -/
inductive Bank where
  | free
  | loading (team : Nat)
  | ready (team : Nat)
  /-- The contexts of the teams that left in a swap, draining since a cycle. -/
  | draining (teams : List Nat) (since : Nat)
deriving DecidableEq, Repr

/-- A pre-emption in a core (file 15 R412, R413): the incoming team if any, the outgoing teams, the cycle of the request,
and, once the point is reached, the cycle at which the swap ends. -/
structure Swap where
  incoming : Option Nat
  outgoing : List Nat
  request : Option Nat
  swapEnd : Option Nat := none
  /-- Cycle by which the incoming context is loaded. -/
  loaded : Nat := 0
deriving DecidableEq, Repr

/-- A 64-byte line of the core view (file 03 R500): the strand that loaded it, its ASID, its virtual and its physical line, and for each
byte one more than the log position of the publication it holds (0: none) with its value. -/
structure Line where
  strand : Nat
  asid : Nat
  vline : Nat
  pline : Nat
  data : List (Nat × Byte)
deriving DecidableEq, Repr

/-- A core of a compute course. -/
structure Core where
  /-- Strand (key) that issues, if any. -/
  slot : Option Nat := none
  nextIssue : Nat := 0
  /-- Cycle at which the repetition that issued last, or a switch of strands, ends: a pre-emption point (file 15 R412). -/
  bundleEnd : Nat := 0
  /-- Lines of the core view, most recently used first. -/
  view : List Line := []
  mq : List MOp := []
  mteam : Nat := 0
  mrun : Option MRun := none
  /-- Last cycle on which an M operation occupied the engine. -/
  mfree : Nat := 0
  /-- Cycle until which each engine is busy: 0 copy and fill, 2 row gather, 3 table (file 08 R308). -/
  busy : NMap Nat := []
  /-- Active cycles of each engine under the commands that have ended, modulo 4: it charges a unit on each fourth (file 08 R316). -/
  active : NMap Nat := []
  /-- Energy charges of the last 256 cycles: cycle and units (file 16 R433). -/
  meter : List (Nat × Nat) := []
  udecl : Bool := false
  bank0 : Bank := .free
  bank1 : Bank := .free
  swap : Option Swap := none
  /-- The spill unit's step: a fill or a spill, team, item; the cycle on which it began (file 15 R417, R421). -/
  work : Option (Bool × Nat × Nat) := none
  spillAt : Nat := 0
  /-- Items that a strand of the core waits for, oldest first: team, item (R418). -/
  touched : List (Nat × Nat) := []
  /-- Gang reservation: the launch that holds the core (file 11 R350). -/
  resv : Option Nat := none
deriving DecidableEq, Repr

/-- A hardware queue (file 07 R282). -/
structure Queue where
  isOpen : Bool := false
  owner : Nat := 0
  cap : Nat := 0
  backoff : Nat := 0
  gen : Nat := 0
  entries : List QEntry := []
deriving DecidableEq, Repr

/-- The fields of a launch header (file 01 R19). -/
structure LaunchHdr where
  entry : Nat := 0
  handler : Nat := 0
  trapen : Nat := 0
  asid : Nat := 0
  xp : Nat := 0
  wp : Nat := 0
  tiles : Nat := 0
  gang : Bool := false
  strands : Nat := 1
  cores : Nat := 1
  ww : List Nat := []
  widbase : Nat := 0
  arg : Nat := 0
  mbximg : Nat := 0
deriving DecidableEq, Repr

/-- A launch at the distributor. -/
structure Launch where
  live : Bool := false
  hdrVa : Nat := 0
  /-- ASID and level of the submitter; level 3: the stream scheduler (file 01 R20). -/
  subAsid : Nat := 0
  subLevel : Nat := 0
  /-- The JCB's virtual address; `none`: internal to the scheduler (file 11 R336). -/
  jcb : Option Nat := none
  queue : Nat := 0
  cost : Nat := 0
  /-- Arrival order; gang tickets follow it (file 11 R350). -/
  seq : Nat := 0
  isReady : Bool := false
  tReady : Nat := 0
  /-- Cycle at which its request reaches the distributor (file 08 R307). -/
  arrive : Nat := 0
  /-- Entry of the dependence table, if a task. -/
  task : Option Nat := none
  /-- Stream and frame number of its frame job (file 11 R337). -/
  job : Option (Nat × Nat) := none
  hdr : Option LaunchHdr := none
  gang : Bool := false
  handle : Nat := 0
  /-- Teams bound so far; context slots of the teams not yet exited; teams exited. -/
  bound : Nat := 0
  slots : List Nat := []
  exited : Nat := 0
  killed : Bool := false
  /-- Forced pool, oldest first (file 05 R201, file 16 R436). -/
  pool : List (Nat × Nat) := []
  /-- Arrivals at the pending launch barrier: strands (file 05 R169). -/
  barArr : List Nat := []
  /-- Mailbox writes held for unbound teams: core-in-launch, strand, mailbox, value (file 01 R27). -/
  held : List (Nat × Nat × Nat × Word) := []
  /-- Mailbox values given by the scheduler (file 11 R336). -/
  mbxInit : List (Nat × Word) := []
  /-- Core on which each of its teams last ran, by team index; 256 for the teams of a read-after-write predecessor (file 11 R348). -/
  ranOn : List (Nat × Nat) := []
deriving DecidableEq, Repr

/-- A task of the dependence table (file 11 R342-R344). -/
structure Task where
  seq : Nat
  asid : Nat
  launch : Nat
  reads : List (Nat × Nat)
  writes : List (Nat × Nat)
  wfresh : Bool
  cost : Nat
  job : Option (Nat × Nat)
  /-- Sequence numbers of the tasks it waits for. -/
  waits : List Nat
  /-- Pages it renames, and whether they still await frames. -/
  rename : List Nat
deriving DecidableEq, Repr

/-- A live renamed version of a page (file 11 R345). -/
structure Version where
  asid : Nat
  page : Nat
  seq : Nat
  frame : Nat
deriving DecidableEq, Repr

/-- A ring of a stream (file 11 R339-R341). -/
structure Ring where
  hdr : Nat := 0
  nslot : Nat := 0
  slotb : Nat := 0
  rsv : Nat := 0
  pub : Nat := 0
  ready : Nat := 0
  poison : Nat := 0
  /-- The indices reserved from PUB on: index, cycle of the reservation, number of the frame that reserved it. -/
  times : List (Nat × Nat × Nat) := []
  /-- Index for which a ring-stall event stands. -/
  stalled : Option Nat := none
deriving DecidableEq, Repr

/-- A frame job (file 11 R337, R353). -/
structure Job where
  k : Nat
  tk : Nat
  dk : Nat
  drop : Bool := false
  published : Bool := false
  width8 : Nat := 0
  height8 : Nat := 0
deriving DecidableEq, Repr

/-- A stream of the stream table (file 11 R330-R341, R353-R358). -/
structure Stream where
  live : Bool := false
  asid : Nat := 0
  period : Nat := 1000000
  deadline : Nat := 1
  t0 : Nat := 0
  fprog : Nat := 0
  stage : Nat := 0
  kvpages : Nat := 0
  kvbase : Nat := 0
  kvused : Nat := 0
  rtimeout : Nat := 0
  bands : Nat := 2
  codec : Nat := 0
  climb : Nat := 3
  minrung : Nat := 0
  rungs : List (Nat × Nat × Nat) := []
  rung : Nat := 0
  ontime : Nat := 0
  engine : Nat := 0
  nextK : Nat := 0
  closing : Bool := false
  closed : Bool := false
  jobs : List Job := []
  deferred : List Nat := []
  frame : Ring := {}
  bits : Ring := {}
  irq : Bool := false
  /-- The encoder: frame being coded, next band, bands held (frame, band, log length), repeats coded. -/
  encK : Nat := 0
  encBand : Nat := 0
  encHeld : List (Nat × Nat × Nat) := []
  encDims : Option (Nat × Nat) := none
  repeats : Nat := 0
  /-- The rows read of the frame being coded; it has become a repeat (R355, R357). -/
  encRows : List Byte := []
  encRep : Bool := false
  /-- Geometry of the frames released and not yet coded: frame, deadline, width8, height8. -/
  encJobs : List (Nat × Nat × Nat × Nat) := []
  /-- Frame waiting for a bitstream slot, and whether its full-ring event is posted. -/
  encWait : Option (Nat × Bool) := none
deriving DecidableEq, Repr

/-- A fault record before it is written (file 15 R401): eight dwords, the last without its serial. -/
structure Record where
  kind : Nat
  code : Nat
  asid : Nat := 0
  ocode : Nat := 0
  subj : Nat := 0
  tinfo : Nat := 0
  tepc : Nat := 0
  trep : Nat := 0
  lh : Nat := 0
  core : Nat := 0
  strand : Nat := 0
  token : Nat := 0
  coreId : Nat := 0
  cycle : Nat := 0
  aux : Nat := 0
  seq : Nat := 0
deriving DecidableEq, Repr

/-- Cluster state (file 16 R427, R436). TEMP in 1/256 degrees. -/
structure Cluster where
  temp : Nat := 0
  hot : Bool := false
  dwellEnd : Option Nat := none
  stop : Bool := false
  budget : Nat := 0
  target : Nat := 0xFFFF
  /-- Cycle on which TARGET was last set (R429). -/
  tset : Nat := 0
  pattern : Nat := 0xFFFF
deriving DecidableEq, Repr

/-- Course state (file 13 R369, file 16 R427, R430, R431). -/
structure Course where
  hotsens : Nat := 0
  allowed : Nat := 0xFFFF
  refx2 : Bool := false
  grant : Nat := 0
  pa : Nat := 16
  droops : Nat := 0
  /-- The cycle that the last droop stretched. -/
  stretch : Option Nat := none
  /-- The refresh schedule in force, every 36 cycles: REFX2 as it stood at the last refresh operation (file 16 R440). -/
  fast : Bool := false
  /-- Next pane or block to refresh, and the cycle of the last operation (file 08 R313). -/
  refresh : Nat := 0
  refreshed : Nat := 0
deriving DecidableEq, Repr

/-- A pair waiting at a ring port (file 07 R289): the team, the command, direction, tag, and the cycle at which it reached
the port. -/
structure RingCmd where
  team : Nat
  cmd : Nat
  send : Bool
  tag : Nat
  units : Nat
  since : Nat
deriving DecidableEq, Repr

/-- A ring port (file 18 R459-R462). -/
structure Port where
  next : Nat := 0
  mm1 : Nat := 0
  pos : Nat := 0
  en : Bool := false
  prevrid : Nat := 0
  revto : Nat := 16
  alayer : Nat := 0
  aframe : Nat := 0
  idereq : Bool := false
  ideok : Bool := false
  aborted : Bool := false
  /-- Revolutions that the port has abandoned, with no command since: layer, frame (file 18 R462). -/
  gone : List (Nat × Nat) := []
  rmbx : Word := 0
  /-- Words written to the ring mailboxes of NEXT and PREV: true for NEXT; where to, the bus address of NEXT's window or the requester ID of
  PREV; the word (file 18 R462). -/
  sent : List (Bool × Nat × Nat) := []
deriving DecidableEq, Repr

/-- An agent of the consistency model (file 03 R94). -/
inductive Agent where
  | strand (k : Nat)
  | engine (team : Nat)
  | plinth
  | host
deriving DecidableEq, Repr

/-- A publication or atomic, an element of the total order of file 03 R96, R99: agent and its place, scope, and the physical
bytes with the values before and after. -/
structure Pub where
  agent : Agent
  course : Nat
  core : Nat
  scope : Nat
  /-- The result of an atomic, or a store that entered the order before one (R106). -/
  atomic : Bool := false
  cells : List (Nat × Byte × Byte)
deriving DecidableEq, Repr

/-- A PCIe transaction the device sent (file 03 R93): port, bus address, kind (0 write, 1 read, 2 AtomicOp; 3 a transfer
of the ring engine, to the ring window of NEXT), operation, or the step tag of a transfer, data. -/
structure PcieOut where
  port : Nat
  addr : Nat
  kind : Nat
  op : Nat := 0
  data : List Byte := []
deriving DecidableEq, Repr

/-- An entry of the translation cache of a controller (file 14 R386, R387): ASID, page, whether it maps 64 MiB, leaf and attribute
dword. Most recently used first in the list of entries. -/
structure TlbEntry where
  ctl : Nat
  asid : Nat
  page : Nat
  large : Bool
  leaf : Nat
  attr : Nat
deriving DecidableEq, Repr

/-- An entry of the walk cache of a controller (file 14 R387): level 0 is the entry of the ASID table; at levels 1 to 3 the index is
the virtual address above the reach of the entry. -/
structure WalkEntry where
  ctl : Nat
  asid : Nat
  lvl : Nat
  index : Nat
  val : Nat
deriving DecidableEq, Repr

/-- A block of the block cache (file 13 R376, R379): set, ASID, virtual block, valid and dirty sectors, class (0 P, 1 S,
2 O), its physical block, and whether its page is of 64 MiB. Most recently used first in the list of blocks. -/
structure Block where
  slice : Nat
  set : Nat
  asid : Nat
  vblock : Nat
  pblock : Nat
  valid : Nat
  dirty : Nat
  cls : Nat
  large : Bool := false
deriving DecidableEq, Repr

/-- An entry of the prefix index (file 14 R395). -/
structure Prefix where
  asid : Nat
  key : Nat
  npg : Nat
  lookup : Nat
  /-- Physical frames of its list. -/
  frames : List Nat
deriving DecidableEq, Repr

/-- A record of the step journal (file 20 R477). -/
structure Journal where
  bootn : Nat := 0
  detail : Nat := 0
  step : Nat := 0
  attempt : Nat := 0
  variant : Nat := 0
  outcome : Nat := 0
deriving DecidableEq, Repr

/-- Module flash and fuses (file 20 R477, R482, R483; file 13 R368). -/
structure Flash where
  journal : NMap Journal := []
  jnext : Nat := 0
  bootn : Nat := 0
  cls : Nat := 1
  cpref : Nat := 0x36
  /-- The version fields of the image, and the fused version floor. -/
  version : Nat := 0
  klen : Nat := 0
  rlen : Nat := 0
  floor : Nat := 0
  /-- Bytes of the image by offset. -/
  image : NMap Byte := []
  /-- Fences kept by the records of the steps: courses, channels, slow channels. -/
  cfence : Nat := 0
  chfence : Nat := 0
  chslow : Nat := 0
  jclr : Bool := false
  /-- Start number from which records count (R478: the clear sets every count to zero). -/
  counted : Nat := 0
  /-- A flash write was cut by a power loss (file 20 R475 cases). -/
  unfinished : Bool := false
deriving DecidableEq, Repr

/-- Start-up and management state (file 20 R485). -/
structure Boot where
  bootn : Nat := 0
  rstcause : Nat := 0
  step : Nat := 0
  variant : Nat := 0
  attempt : Nat := 0
  slot : Nat := 0
  recovery : Bool := false
  degraded : Bool := false
  fatal : Bool := false
  ready : Bool := false
  chslow : Nat := 0
  chfence : Nat := 0
  cfence : Nat := 0
  cpref : Nat := 0
  kver : Nat := 0
  rver : Nat := 0
  /-- Cycle on which the running step began (R478). -/
  since : Nat := 0
  /-- Measurements 1 and 2, as steps 2 and 9 record them (R482). -/
  meas1 : Option Nat := none
  meas2 : Option Nat := none
  powered : Bool := true
deriving DecidableEq, Repr

/-- The SPDM responder of a port (file 18 R466). -/
structure Spdm where
  version : Bool := false
  caps : Bool := false
  algs : Bool := false
  session : Bool := false
  secured : Bool := false
  /-- Responses sent, newest first: request code and the response's content. -/
  out : List (Nat × List Nat) := []
deriving DecidableEq, Repr

/-- An IDE stream (file 18 R467): 0 not established, 1 secure, 2 insecure. -/
structure Ide where
  state : Nat := 0
  key : Nat := 0
deriving DecidableEq, Repr

/-- A trap raised by a slot (file 01 R34, R35): its place in the order of R35, code, TINFO. -/
structure TrapRec where
  prio : Nat
  code : Nat
  tinfo : Word
  /-- FLAGS bits set before an arithmetic trap (R30). -/
  flags : BitVec 7 := 0
  /-- Detail for a runtime fault whose TEPC is not the faulting bundle. -/
  tepc : Option VA := none
deriving DecidableEq, Repr

/-- A slot of the bundle being issued: slot number (R144), word index, instruction, stepped addresses of a re-issue. -/
structure IssueSlot where
  slot : Nat
  word : Nat
  instr : Instr
  addrs : Option (List Nat) := none
deriving DecidableEq, Repr

/-- The bundle being issued (model): its address, length in bytes, header, the register values as they stood before it, and
what its slots have asked for. -/
structure Issue where
  start : VA := 0
  bytes : Nat := 4
  /-- REPEAT of its header. -/
  rept : Nat := 0
  energy : Nat := 0
  stop : Bool := false
  stickyV : Bool := false
  stickyM : Bool := false
  stickyD : Bool := false
  slots : List IssueSlot := []
  /-- Register files, and the team's panes and tables, as they stood before the bundle. -/
  snap : Option Strand := none
  tsnap : Option Team := none
  /-- The team's M operations before the bundle (file 03 R89). -/
  mops : Option (List MOp) := none
  /-- Word index and slot of the slot being performed; addresses of a re-issue. -/
  word : Nat := 0
  slot : Nat := 0
  addrs : Option (List Nat) := none
  /-- A trap that the slot raised and that has been taken. -/
  trap : Option TrapRec := none
  blocked : Bool := false
  /-- Where control goes after the bundle, when not to the next one. -/
  jump : Option VA := none
  branch : Bool := false
  /-- The bundle has been retired already by its C slot. -/
  retired : Bool := false
  groupEnd : Bool := false
  /-- The group that begins with the bundle has a dependence, at the address of its second bundle (R134). -/
  depend : Option Nat := none
  /-- An illegal encoding or opcode of the bundle that decoding found (R35, R135, R144). -/
  found : Option TrapRec := none
deriving DecidableEq, Repr

/-- A turn of the machine that the outside, or the order of events, decides (model). -/
inductive Turn where
  /-- A device event takes place. -/
  | event (i : Instr)
  /-- This strand is the one to issue next. -/
  | issue (strand : Nat)
  /-- The control period ends (file 16 R425). -/
  | period
deriving DecidableEq, Repr

/-- An update of a job control block by the hardware (file 07 R267): an error (code, detail, address), completions counted, flags set. -/
structure JcbUpdate where
  err : Option (Nat × Nat × Nat) := none
  count : Nat := 0
  flags : Nat := 0
deriving DecidableEq, Repr

/-- A mailbox or register access held while the partition is re-enumerated (file 13 R375) or before admission (R372). -/
inductive HeldReq where
  /-- STOPEN of a strand: the address of its contract. -/
  | stopen (strand : Nat) (contract : Nat)
  /-- A window access under the ASID and at the virtual address that BAR2CFG gave it when it arrived (file 18 R455). -/
  | bar2Write (asid va : Nat) (bytes : List Nat)
  | bar2Read (asid va n : Nat)
  | bar2Atomic (asid va n op value compare : Nat)
  /-- The completion of a ring pair, as its event names it. -/
  | ringPair (port tag : Nat) (send ok : Bool) (data : List Nat)
  /-- An update of a JCB: launch handle, ASID, address. -/
  | jcb (lh asid va : Nat) (u : JcbUpdate)
  /-- An update of a ring header under an ASID. -/
  | ring (asid : Nat) (r : Ring)
deriving DecidableEq, Repr

/-- The state of the machine. -/
structure State where
  cycle : Nat := 0
  strands : NMap Strand := []
  teams : NMap Team := []
  cores : NMap Core := []
  launches : NMap Launch := []
  -- memory and translation
  mem : Memory := []
  log : List Pub := []
  tlb : List TlbEntry := []
  walks : List WalkEntry := []
  cache : List Block := []
  asidBase : Nat := 0
  freeHead : Nat := 0
  free : Nat := 0
  lowmark : Nat := 0
  mapCount : NMap Nat := []
  pfxBase : Nat := 0
  pfx : List (Nat × Prefix) := []
  seeds : NMap Word := []
  books : NMap Nat := []
  pcieOut : List PcieOut := []
  -- queues, tasks, streams
  queues : NMap Queue := []
  tasks : NMap (Option Task) := []
  versions : List Version := []
  qcwSusp : NMap Bool := []
  qcwRank : NMap Nat := []
  nextLid : Nat := 1
  nextLh : Nat := 1
  nextSeq : Nat := 0
  nextCmd : Nat := 1
  lastSel : Nat := 0
  stagel : Nat := 0
  resvl : Nat := 0
  cap : Nat := 0
  streams : NMap Stream := []
  /-- Entries each encoder engine has dropped (file 11 R356). -/
  encDropped : NMap Nat := []
  mbxDrop : Nat := 0
  -- faults and contexts
  fltBase : Nat := 0
  fltLog2n : Nat := 0
  fltHead : Nat := 0
  fltTail : Nat := 0
  fltLost : Nat := 0
  fltHold : List Record := []
  fltSeq : Nat := 0
  ksQueue : List Record := []
  ctxBase : Nat := 0
  ctxN : Nat := 0
  -- partition and heat
  epoch : Nat := 0
  rcState : Nat := 0
  pendMap : Nat := 0
  roleMap : Nat := 0
  cls : Nat := 0
  rcSkipTest : Bool := false
  rcDry : Bool := false
  rcStrand : Nat := 0
  held : List HeldReq := []
  hotth : Nat := 95
  hyst : Nat := 2
  marginC : Nat := 3
  dwell : Nat := 20
  pmin : Nat := 4
  /-- Control periods that have ended (file 16 R425). -/
  period : Nat := 0
  courses : NMap Course := []
  clusters : NMap Cluster := []
  -- host link
  b2asid : Nat := 0
  b2vb : Nat := 0
  b2en : Bool := false
  b2size : Nat := 30
  b2errN : Nat := 0
  b2errVa : Nat := 0
  /-- Completions sent to the host or peer: kind (0 data, 1 Unsupported Request, 2 Completer Abort) and data. -/
  hostOut : List (Nat × List Nat) := []
  msixAddr : NMap Word := []
  msixData : NMap Nat := []
  msixOn : NMap Bool := []
  msixPend : NMap Bool := []
  msixOut : List Nat := []
  ports : NMap Port := []
  ringCmds : NMap (List RingCmd) := []
  flash : Flash := {}
  boot : Boot := {}
  ecc : NMap (Nat × Nat) := []
  rthb : Word := 0
  spdm : NMap Spdm := []
  ide : NMap Ide := []
  -- the model's own
  cur : Nat := 0
  agenda : List Turn := []
  iss : Issue := {}
  freeN : Nat := 0
deriving DecidableEq, Repr

/-- Why the machine stops with a fault. -/
inductive Fault where
  /-- Raised by `step` when module power is off (file 20 R478: a power loss stops all work) and nothing on the agenda turns it
  on. Safe: the machine does nothing where the hardware does nothing. -/
  | noPower
deriving DecidableEq, Repr

/-- Why an instruction has no meaning. -/
inductive Refusal where
  /-- An instruction whose meaning is not written. Safe: nothing is claimed of it. -/
  | notModelled (mnemonic : String)
deriving DecidableEq, Repr

/-- Cores at plinth reset and every other table entry not listed are at these defaults. -/
def State.initial : State := {}

/-- The machine right after plinth reset (file 20 R474): all device state cleared, the cycle counter at zero, module flash and
fuses at the values the assumption log names. Power-on runs the start from step 1 (R475), whose record stands in the journal (R477). -/
def State.reset : State :=
  { boot := { step := 1, bootn := 1, cpref := 0x36 },
    flash := { bootn := 1, journal := [(0, { bootn := 1, step := 1, outcome := 4 })], jnext := 1 },
    cls := 1,
    queues := (List.range 16).map (fun e => (4080 + e, { isOpen := true, owner := 65536, cap := 65536 })) }

end Sys2Proof.Machine
end

