-- ==== Sys2Proof/Machine/Ops.lean ====
section
/-! DEFINITION. The named operations over the state: entries of its tables, registers, memory and publications, mailboxes,
fault records, and taking an exception and returning from one. -/

namespace Sys2Proof.Machine

/-! ### Table entries -/

def State.strand (s : State) (k : Nat) : Strand := NMap.get {} s.strands k
def State.team (s : State) (t : Nat) : Team := NMap.get {} s.teams t
def State.core (s : State) (c : Nat) : Core := NMap.get {} s.cores c
def State.launch (s : State) (l : Nat) : Launch := NMap.get {} s.launches l
def State.queue (s : State) (q : Nat) : Queue := NMap.get {} s.queues q
def State.stream (s : State) (n : Nat) : Stream := NMap.get {} s.streams n
def State.course (s : State) (c : Nat) : Course := NMap.get {} s.courses c
/-- Cluster k of course c is keyed 8 c + k. -/
def State.cluster (s : State) (k : Nat) : Cluster := NMap.get {} s.clusters k
def State.port (s : State) (p : Nat) : Port := NMap.get {} s.ports p

def State.updStrand (s : State) (k : Nat) (f : Strand → Strand) : State := { s with strands := NMap.upd {} s.strands k f }
def State.updTeam (s : State) (t : Nat) (f : Team → Team) : State := { s with teams := NMap.upd {} s.teams t f }
def State.updCore (s : State) (c : Nat) (f : Core → Core) : State := { s with cores := NMap.upd {} s.cores c f }
def State.updLaunch (s : State) (l : Nat) (f : Launch → Launch) : State := { s with launches := NMap.upd {} s.launches l f }
def State.updQueue (s : State) (q : Nat) (f : Queue → Queue) : State := { s with queues := NMap.upd {} s.queues q f }
def State.updStream (s : State) (n : Nat) (f : Stream → Stream) : State := { s with streams := NMap.upd {} s.streams n f }
def State.updCourse (s : State) (c : Nat) (f : Course → Course) : State := { s with courses := NMap.upd {} s.courses c f }
def State.updCluster (s : State) (k : Nat) (f : Cluster → Cluster) : State := { s with clusters := NMap.upd {} s.clusters k f }
def State.updPort (s : State) (p : Nat) (f : Port → Port) : State := { s with ports := NMap.upd {} s.ports p f }

/-- The team (context slot) of a strand, and its index in the team. -/
def teamOf (k : Nat) : Nat := k / 4
def strandIdx (k : Nat) : Nat := k % 4

/-- The strand that issues, and its team. -/
def State.st (s : State) : Strand := s.strand s.cur
def State.tm (s : State) : Team := s.team (teamOf s.cur)
def State.setSt (s : State) (f : Strand → Strand) : State := s.updStrand s.cur f
def State.setTm (s : State) (f : Team → Team) : State := s.updTeam (teamOf s.cur) f

/-- The supervisor contexts (file 01 R31): the keystone's and the runtime's teams. -/
def keystoneTeam : Nat := 65536
def runtimeTeam : Nat := 65537
def isSupervisor (t : Nat) : Bool := 65536 ≤ t

/-- The core of a team; the supervisor cores are numbered after the last core position. -/
def State.coreOf (s : State) (t : Nat) : Nat := if isSupervisor t then 192 + (t - 65536) else (s.team t).core
/-- The course of a core; 6 for the supervisor cores. -/
def courseOf (core : Nat) : Nat := core / 32
/-- The cluster of a core, as a key of `clusters`. -/
def clusterOf (core : Nat) : Nat := core / 4

/-- The strands of a team. -/
def State.members (s : State) (t : Nat) : List Nat := (List.range (s.team t).nstr).map (fun i => 4 * t + i)

/-- Apply a function to the state for each element of a list, in order. -/
def State.forEach {α : Type} (s : State) (l : List α) (f : State → α → State) : State := l.foldl f s

/-! ### The partition (file 13 R366, R370, R373; file 20 R480) -/

def State.isCompute (s : State) (c : Nat) : Bool := c < 6 && bit s.roleMap c
def State.isStore (s : State) (c : Nat) : Bool := c < 6 && !bit s.roleMap c && !bit s.boot.cfence c
def State.computeCourses (s : State) : List Nat := (List.range 6).filter s.isCompute
def State.storeCourses (s : State) : List Nat := (List.range 6).filter s.isStore
/-- N, the compute cores of the partition. -/
def State.nCores (s : State) : Nat := 32 * s.computeCourses.length
/-- The flat number of a core (R373). -/
def State.flat (s : State) (core : Nat) : Nat :=
  32 * ((List.range (courseOf core)).filter s.isCompute).length + core % 32
def State.coreList (s : State) : List Nat :=
  (s.computeCourses.map (fun c => (List.range 32).map (fun i => 32 * c + i))).flatten

/-- SLICE_HASH and LLC_CAP (R370). -/
def State.sliceHash (s : State) : Nat :=
  256 * s.storeCourses.length + (s.storeCourses.map (fun c => 2 ^ c)).foldl (· + ·) 0
def State.llcCap (s : State) : Nat := 256 * s.storeCourses.length

/-- CORE_ID of a strand (file 01 R29); on a supervisor core the identity fields are 0 (log 97). -/
def State.coreId (s : State) (k : Nat) : Nat :=
  let c := s.coreOf (teamOf k)
  65536 * ((s.strand k).slot % 4) + (if c < 192 then 256 * (s.flat c % 256) + c % 256 else 0)

/-- Accesses whose home is a slice of the block cache are held: the flush of a role change and its re-enumeration (R375). -/
def State.holding (s : State) : Bool := s.rcState = 3 || s.rcState = 4

/-! ### Agents and scopes (file 03 R94, R95) -/

def Agent.isStrand : Agent → Bool
  | .strand _ => true
  | _ => false

def Agent.isHost : Agent → Bool
  | .host => true
  | _ => false

/-- Whether an agent at (course, core) is a member of a scope taken relative to a place. On a supervisor core .course acts as
.dev (R95). -/
def inScope (scope course core : Nat) (ag : Agent) (agCourse agCore : Nat) : Bool :=
  match scope with
  | 0 => ag.isStrand && agCore == core
  | 1 => if course ≥ 6 then !ag.isHost else ag.isStrand && agCourse == course
  | 2 => !ag.isHost
  | _ => true

/-! ### Memory, publications and views (file 03 R94-R107) -/

/-- A little-endian number of `n` bytes of memory, at its home. -/
def State.peek (s : State) (pa n : Nat) : Nat := leNat ((List.range n).map (fun i => Memory.read s.mem (pa + i)))

/-- Add a publication to the order of R96 and R99 and carry it out at the home of each byte. -/
def State.publishAt (s : State) (ag : Agent) (course core scope : Nat) (atomic : Bool) (bs : List (Nat × Byte)) : State :=
  if bs.isEmpty then s else
  { s with
    mem := bs.foldl (fun m p => Memory.write m p.1 p.2) s.mem
    log := s.log ++ [{ agent := ag, course := course, core := core, scope := scope, atomic := atomic,
                       cells := bs.map (fun p => (p.1, Memory.read s.mem p.1, p.2)) }] }

/-- A publication of the plinth's units, engines or firmware structures. -/
def State.poke (s : State) (pa : Nat) (bs : List Byte) (scope : Nat) : State :=
  s.publishAt .plinth 6 255 scope false ((List.range bs.length).zip bs |>.map (fun p => (pa + p.1, p.2)))

/-- Give a frame new contents: no earlier value of its bytes is left for any view (file 14 R391). -/
def State.refill (s : State) (pa len : Nat) (bs : List Byte) : State :=
  let out := fun (a : Nat) => !(pa ≤ a && a < pa + len)
  { s with
    mem := Memory.writeList (s.mem.filter (fun c => out c.1)) pa bs
    log := s.log.map (fun p => { p with cells := p.cells.filter (fun c => out c.1) }) }

/-- The value a publication gives a physical byte, if it has one. -/
def Pub.byteAt (p : Pub) (pa : Nat) : Option Byte := (p.cells.find? (fun c => c.1 == pa)).map (fun c => c.2.2)

/-- The last publication before position `lim` that gives byte `pa` a value and passes a test: its position and value. -/
def lastPub (test : Pub → Bool) (pa lim : Nat) : List Pub → Nat → Option (Nat × Byte)
  | [], _ => none
  | p :: r, i =>
    match lastPub test pa lim r (i + 1) with
    | some x => some x
    | none =>
      if i < lim && test p then (p.byteAt pa).map (fun b => (i, b)) else none

/-- R97: a publication is visible to a renewal of strand `k` exactly when each lies in the scope of the other; a strand's own
publications are. -/
def visibleTo (k : Nat) (r : Renewal) (p : Pub) : Bool :=
  p.agent == .strand k || inScope p.scope p.course p.core (.strand k) r.course r.core && inScope r.scope r.course r.core p.agent p.course p.core

/-- The value of a byte before any publication of the log. -/
def State.firstByte (s : State) (pa : Nat) : Byte :=
  match s.log.find? (fun p => (p.byteAt pa).isSome) with
  | some p => ((p.cells.find? (fun c => c.1 == pa)).map (fun c => c.2.1)).getD 0
  | none => Memory.read s.mem pa

/-- The view of a byte that a list of renewals (newest first) gives, of the publications that pass a test: one more than the position of
its publication, and the value. -/
def State.viewBy (s : State) (test : Pub → Bool) (k : Nat) (pa : Nat) : List Renewal → Nat × Byte
  | [] => (0, s.firstByte pa)
  | r :: rest =>
    match lastPub (fun p => visibleTo k r p && test p) pa r.pos s.log 0 with
    | some (i, b) => (i + 1, b)
    | none => s.viewBy test k pa rest

/-- The view of a byte for the strand's loads. -/
def State.viewByte (s : State) (k : Nat) (pa : Nat) (l : List Renewal) : Nat × Byte := s.viewBy (fun _ => true) k pa l

/-- Drop the lines of a strand from a core's view (R500). -/
def State.dropLines (s : State) (core k : Nat) : State :=
  s.updCore core (fun K => { K with view := K.view.filter (fun l => l.strand != k) })

/-- A renewal takes the place of older ones of the same scope and place (R96, R97). -/
def Renewal.onto (r : Renewal) (l : List Renewal) : List Renewal :=
  r :: l.filter (fun o => !(o.scope == r.scope && o.course == r.course && o.core == r.core && (r.range.isNone || o.range == r.range)))

/-- The renewals that act on a code address (file 05 R159, file 14 R398). -/
def renewalsAt (va : Nat) (l : List Renewal) : List Renewal :=
  l.filter (fun r => match r.range with
    | some (lo, hi) => lo ≤ va && va < hi
    | none => true)

/-- Bytes of memory as page-table walks and the units of the plinth read them: every publication at .dev is observed, a store or the result
of an atomic at a narrower scope is not (file 14 R384, R106, R111). -/
def State.byteDev (s : State) (pa : Nat) : Byte :=
  match lastPub (fun p => p.scope ≥ 2) pa s.log.length s.log 0 with
  | some (_, b) => b
  | none => s.firstByte pa

/-- A little-endian number of `n` bytes as a walk reads it. -/
def State.peekDev (s : State) (pa n : Nat) : Nat :=
  if s.log.isEmpty then s.peek pa n else leNat ((List.range n).map (fun i => s.byteDev (pa + i)))

/-- A renewal of strand `k` at a scope (R96): the strand's lines leave the core view (R500). -/
def State.renewal (s : State) (k scope : Nat) : State :=
  let c := s.coreOf (teamOf k)
  let r : Renewal := { pos := s.log.length, scope := scope, course := courseOf c, core := c }
  (s.dropLines c k).updStrand k (fun st =>
    { st with
      renew := r.onto st.renew
      stores := st.stores.filterMap (fun p =>
        match p.2 with
        | none => none
        | some o => if o.scope == some 3 then none else if o.scope.isSome then some (p.1, some { o with fresh := false }) else some p) })

/-- A renewal of the fetch view of strand `k` (file 05 R159): PHASE and the atomics at .dev or .sys carry one. -/
def State.renewFetch (s : State) (k scope : Nat) : State :=
  if scope < 2 then s else
  let c := s.coreOf (teamOf k)
  let r : Renewal := { pos := s.log.length, scope := scope, course := courseOf c, core := c }
  s.updStrand k (fun st => { st with irenew := r.onto st.irenew })

/-- The position from which a publication falls in the current phase of the strand. -/
def phaseStart (st : Strand) : Nat := (st.renew.map (·.pos)).foldl Nat.max 0

/-- A byte races for strand `k` (R98, R106): another agent has published it in the strand's current phase at a scope that covers the
strand, or an atomic of another agent has entered its order. -/
def State.raced (s : State) (k pa : Nat) : Bool :=
  let st := s.strand k
  let c := s.coreOf (teamOf k)
  (s.log.zipIdx).any (fun (p, i) =>
    p.agent != .strand k && (p.byteAt pa).isSome &&
      (p.atomic || phaseStart st ≤ i && inScope p.scope p.course p.core (.strand k) (courseOf c) c))

/-- One more than the position of the strand's own publication of a byte, where its latest store to it, through the same virtual address,
has been published since its last renewal (R98, file 14 R389); else 0. -/
def State.ownFloor (s : State) (k va pa : Nat) : Nat :=
  match NMap.get none (s.strand k).stores va with
  | some o =>
    if o.fresh && o.scope.isSome then
      match lastPub (fun p => p.agent == .strand k) pa s.log.length s.log 0 with
      | some (i, _) => i + 1
      | none => 0
    else 0
  | none => 0

/-- What a load of a byte at a virtual address returns nothing earlier than (R98, R106): the newest value that an access of the strand has
returned, and its own published store. One more than a position of the log. -/
def State.floorOf (s : State) (k va pa : Nat) : Nat := Nat.max (NMap.get 0 (s.strand k).seen pa) (s.ownFloor k va pa)

/-- The value that the view of strand `k` holds for a byte: of its renewals, or the newest that an access of the strand has returned or
published (R98, R106). One more than the position of its publication, and the value. -/
def State.viewOf (s : State) (k va pa : Nat) : Nat × Byte :=
  let st := s.strand k
  let v := s.viewByte k pa st.renew
  let f := s.floorOf k va pa
  if v.1 < f then
    match (s.log[f - 1]?).bind (fun p => p.byteAt pa) with
    | some b => (f, b)
    | none => v
  else v

/-- The last value before position `lim` that the order gives a byte after the one the view holds. -/
def State.valueUpTo (s : State) (pa lim : Nat) (v : Nat × Byte) : Nat × Byte :=
  match lastPub (fun _ => true) pa lim s.log 0 with
  | some (j, b) => if v.1 ≤ j then (j + 1, b) else v
  | none => v

/-- The values that a load of the bytes of one aligned word obtains (R98, R101): those of the view, all at the newest publication among
them; or, where a byte races, all as a later publication left them. -/
def State.loadWord (s : State) (k va pa : Nat) : State × List (Nat × Byte) :=
  let pas := (List.range 8).map (pa + ·)
  let views := (List.range 8).map (fun i => s.viewOf k (va + i) (pa + i))
  let floor := (views.map (·.1)).foldl Nat.max 0
  let base := (pas.zip views).map (fun p =>
    if p.2.1 = floor then p.2 else
    match (s.log[floor - 1]?).bind (fun q => q.byteAt p.1) with
    | some b => (floor, b)
    | none => p.2)
  let cands := if !pas.any (s.raced k) then [] else
    (List.range s.log.length).filter (fun i => floor ≤ i && (match s.log[i]? with
      | some p => pas.any (fun pa => (p.byteAt pa).isSome)
      | none => false))
  if cands.isEmpty then (s, base) else
  match ((floor :: cands.map (· + 1))[Config.raceChoice s.freeN % (cands.length + 1)]?) with
  | some lim =>
    ({ s with freeN := s.freeN + 1 },
     if lim = floor then base else (pas.zip base).map (fun p => s.valueUpTo p.1 lim p.2))
  | none => ({ s with freeN := s.freeN + 1 }, base)

/-- The values of `n` aligned words from `pa`, loaded through `va`, word by word (R101). -/
def State.loadWords (s : State) (k va pa : Nat) : Nat → State × List (Nat × Byte)
  | 0 => (s, [])
  | n + 1 =>
    let (s, w) := s.loadWord k va pa
    let (s, r) := s.loadWords k (va + 8) (pa + 8) n
    (s, w ++ r)

/-- Note what a load has returned: later loads return nothing earlier (R98). -/
def State.noteSeen (s : State) (k pa : Nat) (vals : List (Nat × Byte)) : State :=
  s.updStrand k (fun st => { st with
    seen := ((List.range vals.length).zip vals).foldl (fun m p =>
      NMap.set 0 m (pa + p.1) (Nat.max p.2.1 (NMap.get 0 m (pa + p.1)))) st.seen })

/-! ### The core view (R500) -/

/-- Lines the core view holds: 64 KiB. -/
def viewLines : Nat := 1024

/-- The line of strand `k` that holds a virtual address, if it is in the core view and R98 still allows its values. -/
def State.findLine (s : State) (k va : Nat) : Option Line :=
  (s.core (s.coreOf (teamOf k))).view.find? (fun l =>
    l.strand == k && l.asid == (s.team (teamOf k)).asid && l.vline == va / 64 &&
      ((List.range l.data.length).zip l.data).all (fun p => s.floorOf k (64 * l.vline + p.1) (64 * l.pline + p.1) ≤ p.2.1))

/-- Put a line first in the core view of its strand; the least recently used line goes when the buffer is full. -/
def State.putLine (s : State) (l : Line) : State :=
  s.updCore (s.coreOf (teamOf l.strand)) (fun K =>
    { K with view := (l :: K.view.filter (fun m => !(m.strand == l.strand && m.asid == l.asid && m.vline == l.vline))).take viewLines })

/-- The line of strand `k` at an address: found in the core view, where a line may also have been dropped at any time. -/
def State.hitLine (s : State) (k va : Nat) : State × Option Line :=
  match s.findLine k va with
  | none => (s, none)
  | some l =>
    ({ s with freeN := s.freeN + 1 }, if Config.lineDropped s.freeN then none else some l)

/-- Fetch the line of a byte from its home: the values R98 allows, entered in the core view. -/
def State.fetchLine (s : State) (k va pa : Nat) : State × Line :=
  let (s, data) := s.loadWords k (64 * (va / 64)) (64 * (pa / 64)) 8
  let l : Line := { strand := k, asid := (s.team (teamOf k)).asid, vline := va / 64, pline := pa / 64, data := data }
  (s.putLine l, l)

/-- The bytes that a load of `n` bytes takes from a line. -/
def State.fromLine (s : State) (k va n : Nat) (l : Line) : State × List Byte :=
  let vals := (l.data.drop (va % 64)).take n
  ((s.putLine l).noteSeen k (64 * l.pline + va % 64) vals, vals.map (·.2))

/-! ### Mailboxes (file 01 R27, file 05 R168, R194, file 18 R499) -/

/-- A dropped mailbox write, counted. -/
def State.dropMbx (s : State) : State := { s with mbxDrop := if s.mbxDrop + 1 < 2 ^ 64 then s.mbxDrop + 1 else s.mbxDrop }

/-- Apply a write to a strand's mailbox: value and arrival bit, and the end of a WAITP that waits for it. -/
def State.applyMbx (s : State) (k m : Nat) (v : Word) : State :=
  s.updStrand k (fun st =>
    { st with
      mbx := NMap.set 0 st.mbx m v
      arrive := st.arrive ||| BitVec.ofNat 16 (2 ^ m)
      run := match st.run with
        | .blocked (.mbx mask) => if bit mask m then .ready else st.run
        | r => r })

/-- A mailbox write reaches a strand: where it has exited the write is dropped and counted (R27, R499). -/
def State.deliverMbx (s : State) (k m : Nat) (v : Word) : State :=
  match (s.strand k).run with
  | .exited => s.dropMbx
  | .terminated => s.dropMbx
  | _ => s.applyMbx k m v

/-- The launch with a handle. -/
def State.launchOf (s : State) (lh : Nat) : Option Nat :=
  (s.launches.find? (fun p => p.2.live && p.2.handle == lh && lh != 0)).map (·.1)

/-- The context slot of core-in-launch `idx` of a launch, if that team is bound, saved or loading. -/
def State.slotOf (s : State) (l idx : Nat) : Option Nat :=
  (s.launch l).slots.find? (fun t => (s.team t).idx == idx)

/-- A mailbox write by target descriptor (R27, R194): applied, held for a team not yet bound, or dropped and counted. -/
def State.mailbox (s : State) (desc : Nat) (v : Word) : State :=
  let lh := bits desc 32 32
  let core := bits desc 16 8
  let str := bits desc 8 2
  let m := bits desc 0 4
  match s.launchOf lh with
  | none => s.dropMbx
  | some l =>
    let L := s.launch l
    match L.hdr with
    | none => s.dropMbx
    | some h =>
      if core ≥ h.cores || str ≥ h.strands then s.dropMbx else
      match s.slotOf l core with
      | some t => s.deliverMbx (4 * t + str) m v
      | none =>
        if core < L.bound then s.dropMbx
        else s.updLaunch l (fun L => { L with held := L.held ++ [(core, str, m, v)] })

/-! ### Soft errors (file 21 R490) -/

/-- An uncorrectable error of a kind of storage, counted. -/
def State.countUncor (s : State) (kind : Nat) : State :=
  let e := NMap.get (0, 0) s.ecc kind
  { s with ecc := NMap.set (0, 0) s.ecc kind (e.1, Nat.min (e.2 + 1) 65535) }

/-- The storage that serves an address of normal memory: the block cache where it holds the sector, else GDDR7. -/
def State.storageOf (s : State) (asid va : Nat) : Nat :=
  if s.cache.any (fun b => b.asid == asid && b.vblock == va / 4096 && bit b.valid (va % 4096 / 256)) then 2 else 0

/-! ### Interrupts and fault records (file 15 R400-R403, file 18 R458) -/

/-- Raise an MSI-X vector: a message if it is enabled, a pending bit if it is masked; a vector already pending sends nothing
more. -/
def State.msix (s : State) (v : Nat) : State :=
  if NMap.get false s.msixOn v then { s with msixOut := s.msixOut ++ [v] }
  else { s with msixPend := NMap.set false s.msixPend v true }

/-- Records the fault queue holds (R400). -/
def State.fltSize (s : State) : Nat := 2 ^ (s.fltLog2n + 6)

/-- The eight dwords of a record (R401). -/
def Record.dwords (r : Record) : List Nat :=
  [r.kind % 256 * 2 ^ 56 + r.code % 256 * 2 ^ 48 + r.asid % 65536 * 2 ^ 32 + r.ocode % 256 * 2 ^ 24 + r.subj % 65536,
   r.tinfo % 2 ^ 64,
   r.trep % 16 * 2 ^ 60 + r.tepc % 2 ^ 56,
   r.lh % 2 ^ 32 * 2 ^ 32 + r.core % 256 * 2 ^ 24 + r.strand % 4 * 2 ^ 16 + r.token % 65536,
   r.coreId, r.cycle, r.aux, r.seq]

/-- Write a record into the queue, publish it, at .sys before the message (file 18 R458), advance TAIL, tell the runtime and raise vector 515
(R403). -/
def State.writeRecord (s : State) (r : Record) : State :=
  let s := s.poke (s.fltBase + 64 * (s.fltTail % s.fltSize)) ((r.dwords.map (leBytes 8)).flatten) 3
  let s := { s with fltTail := (s.fltTail + 1) % 2 ^ 32 }
  (s.deliverMbx (4 * runtimeTeam) 0 (BitVec.ofNat 64 s.fltTail)).msix 515

def State.fltFull (s : State) : Bool := (s.fltTail + 2 ^ 32 - s.fltHead) % 2 ^ 32 == s.fltSize

/-- Post a record (R403): into the queue, the holding buffer, or, for kinds 2 to 6, discarded and counted. A record of kind 0 or
1 that finds the buffer full waits behind it. -/
def State.post (s : State) (r : Record) : State :=
  let r := { r with seq := s.fltSeq + 1, cycle := s.cycle }
  if s.fltHold.isEmpty && !s.fltFull then { s with fltSeq := s.fltSeq + 1 }.writeRecord r
  else if s.fltHold.length < 4096 || r.kind < 2 then { s with fltSeq := s.fltSeq + 1, fltHold := s.fltHold ++ [r] }
  else { s with fltLost := if s.fltLost < 2 ^ 32 - 1 then s.fltLost + 1 else s.fltLost }

/-- Post held records in order while the queue has room. -/
def State.postHeld (s : State) : Nat → State
  | 0 => s
  | n + 1 =>
    match s.fltHold with
    | [] => s
    | r :: rest => if s.fltFull then s else ({ s with fltHold := rest }.writeRecord r).postHeld n

/-- The record of a fault of strand `k` (R401). -/
def State.faultRecord (s : State) (k kind : Nat) (f : ParkedFault) : Record :=
  let t := s.team (teamOf k)
  { kind := kind, code := f.code, asid := t.asid, ocode := f.ocode, tinfo := f.tinfo.toNat, tepc := f.tepc.toNat,
    trep := f.trep, lh := t.lh, core := t.idx, strand := strandIdx k, token := teamOf k % 65536,
    coreId := s.coreId k, cycle := s.cycle }

/-! ### Taking an exception, and returning from one (file 01 R34-R42, file 05 R166) -/

/-- A runtime fault or keystone event parks the strand, with no effect of the bundle, and posts its record (R42, R403, R407). -/
def State.park (s : State) (k : Nat) (f : ParkedFault) : State :=
  let r := s.faultRecord k (if f.code ≥ 0x80 then 1 else 0) f
  let s := s.updStrand k (fun st => { st with run := .parked, parked := some f, pc := f.tepc, rep := f.trep, bnd := none })
  let s := if f.code ≥ 0x80 then { s with ksQueue := s.ksQueue ++ [r] } else s
  s.post r

/-- A strand that is parked while it waits has arrived at no barrier (file 15 R404). -/
def State.unarrive (s : State) (k : Nat) : State :=
  (s.updTeam (teamOf k) (fun T => { T with barArr := T.barArr.filter (· != k) })).updLaunch (s.team (teamOf k)).launch
    (fun L => { L with barArr := L.barArr.filter (· != k) })

/-- The latest cycle at which an outstanding access through a PCIe window returns is not known: such an access is unfinished. -/
def Strand.pcieOpen (st : Strand) : Bool := st.pend.any (fun p => p.global && p.pcie && !p.done && !p.failed)

/-- The runtime fault of a failed load or atomic of strand `k`, 0x46 (R93), or of a publication that fails when its request leaves the
core (file 14 R501): TINFO the virtual address; no register is written. -/
def State.faultAccess (s : State) (k : Nat) (p : Pending) : State :=
  ((s.updStrand k (fun st => { st with pend := st.pend.erase p })).unarrive k).park k
    { code := p.code, tinfo := BitVec.ofNat 64 p.va, tepc := p.pc, trep := p.rep }

/-- The entry of a strand trap (R37): the strand's own handler, with the levels of the loop stack frozen (R166). -/
def State.trapEntry (s : State) (k : Nat) (tepc : VA) (trep code : Nat) (tinfo : Word) : State :=
  let h := (s.team (teamOf k)).handler
  s.updStrand k (fun st =>
    { st with
      tepc := tepc
      trep := BitVec.ofNat 4 trep
      tcause := BitVec.ofNat 8 code
      tinfo := tinfo
      tmode := true
      pc := h
      rep := 0
      bnd := none
      grpPos := 0
      grpChecked := false
      loops := st.loops.map (fun l => { l with frozen := true }) })

/-- Take a trap or fault of code `code` on strand `k` with resume point (tepc, trep): the one entry of every class (R34). A supervisor
core's traps go to its own handler (R32). -/
def State.takeTrap (s : State) (k : Nat) (tepc : VA) (trep code : Nat) (tinfo : Word) : State :=
  if code ≥ 0x40 then s.park k { code := code, tinfo := tinfo, tepc := tepc, trep := trep }
  else if (s.strand k).tmode then s.park k { code := 0x44, ocode := code, tinfo := tinfo, tepc := tepc, trep := trep }
  else if !isSupervisor (teamOf k) && (s.team (teamOf k)).handler = 0 then s.park k { code := 0x45, ocode := code, tinfo := tinfo, tepc := tepc, trep := trep }
  else s.trapEntry k tepc trep code tinfo

/-- A trap taken after its bundle has retired (R34, R35): the resume point is the strand's next bundle, and a double trap names the bundle
that raised it. -/
def State.takeLate (s : State) (k code : Nat) (tinfo : Word) : State :=
  let st := s.strand k
  if st.tmode then s.takeTrap k st.lastPc st.lastRep code tinfo else s.takeTrap k st.pc st.rep code tinfo

/-- A handler's return (R38): TMODE clears, the levels pushed in the handler go and the frozen ones act again, and the strand
resumes at TEPC, repetition TREP. -/
def State.trapReturn (s : State) (k : Nat) : State :=
  s.updStrand k (fun st =>
    { st with
      tmode := false
      pc := st.tepc
      rep := st.trep.toNat
      grpPos := 0
      grpChecked := false
      loops := (st.loops.filter (·.frozen)).map (fun l => { l with frozen := false }) })

/-- A trap raised by the slot being performed: the bundle has no effect but the trap registers and FLAGS (R35). -/
def State.raise (s : State) (r : TrapRec) : State :=
  let s := s.setSt (fun st => { st with flags := st.flags ||| r.flags })
  let s := s.takeTrap s.cur (r.tepc.getD s.st.pc) s.st.rep r.code r.tinfo
  { s with iss := { s.iss with trap := some r } }

/-- The strand blocks and its bundle has not issued (R16). -/
def State.block (s : State) (w : Wait) : State :=
  let s := s.setSt (fun st => { st with run := .blocked w })
  { s with iss := { s.iss with blocked := true } }

end Sys2Proof.Machine
end

