-- ==== Sys2Proof/Machine/Translate.lean ====
section
/-! DEFINITION. Translation: page tables and the walk (file 14 R380-R387), the frame allocator and growing regions (R390-R393),
renamed pages (file 11 R345), the address map (file 18 R450), the block cache (file 13 R376-R379, file 14 R388). -/

namespace Sys2Proof.Machine

/-! ### Fields of a page-table entry and of an attribute dword (R382) -/

def pteV (e : Nat) : Bool := bit e 0
def pteL (e : Nat) : Bool := bit e 1
def ptePerm (e : Nat) : Nat := bits e 2 3
def pteType (e : Nat) : Nat := bits e 5 2
def pteGrow (e : Nat) : Bool := bit e 7
def ptePin (e : Nat) : Bool := bit e 8
/-- PA[51:16] as an address. -/
def ptePA (e : Nat) : Nat := bits e 16 36 * 65536
def ptePAL (e : Nat) : Nat := bits e 14 2
/-- A reserved bit of the entry is set. -/
def pteReserved (e : Nat) : Bool := bits e 52 12 != 0 || bits e 9 5 != 0

def attrFmt (a : Nat) : Nat := bits a 0 4
def attrSgeo (a : Nat) : Nat := bits a 4 3
def attrTag (a : Nat) : Nat := bits a 7 10
def attrCb (a : Nat) : Nat := bits a 17 12
/-- Signed offset in units of 64 B (R382). -/
def attrScoff (a : Nat) : Int := sextInt 32 (bits a 32 32)

/-- The index of a level: VA[55:46], [45:36], [35:26], [25:16] (R381). -/
def levelIndex (lvl va : Nat) : Nat := bits va (56 - 10 * lvl) 10

/-- How a walk ends. -/
inductive WalkEnd where
  /-- A leaf: the entry, its attribute dword, the entry's address, and whether it maps 64 MiB. -/
  | leaf (pte attr at_ : Nat) (large : Bool)
  /-- A grow entry at a level: the entry and its address (R391). -/
  | grow (lvl pte at_ : Nat)
  | page
  | prot
deriving DecidableEq, Repr

/-- The index bits of the walk above the reach of an entry of a level; level 0 is the entry of the ASID table (R381). -/
def walkIndex (lvl va : Nat) : Nat := if lvl = 0 then 0 else va / 2 ^ (56 - 10 * lvl)

/-- The walk from a table of level `lvl` on (R384); `read` gives the entry of a level at an address, `n` levels remain. -/
def State.walkFrom (s : State) (read : Nat → Nat → Nat) (va lvl tab : Nat) : Nat → WalkEnd
  | 0 => .prot
  | n + 1 =>
    let a := tab + 8 * levelIndex lvl va
    let pte := read lvl a
    if pteReserved pte then .prot
    else if !pteV pte then
      if pteGrow pte && (lvl == 3 || lvl == 4) then .grow lvl pte a else .page
    else if pteL pte then
      if lvl == 4 then (if ptePAL pte != 0 then .prot else .leaf pte (s.peekDev (a + 8192) 8) a false)
      else if lvl == 3 then
        (if ptePAL pte != 0 || bits pte 16 10 != 0 then .prot else .leaf pte (s.peekDev (a + 8192) 8) a true)
      else .prot
    else if lvl == 4 then .prot
    else s.walkFrom read va (lvl + 1) (ptePA pte + 16384 * ptePAL pte) n

/-- The walk of an ASID whose table entry is `e`. -/
def State.walkAsid (s : State) (read : Nat → Nat → Nat) (e va : Nat) : WalkEnd :=
  if !bit e 0 || bits e 52 12 != 0 || bits e 1 13 != 0 then .prot
  else s.walkFrom read va 1 (bits e 14 38 * 16384) 4

/-- The walk of an ASID through the tables as they stand (R384). -/
def State.walk (s : State) (asid va : Nat) : WalkEnd :=
  s.walkAsid (fun _ a => s.peekDev a 8) (s.peekDev (s.asidBase + 8 * asid) 8) va

/-- The address of the level-4 entry of a page, where its table exists (R381, R384). -/
def State.entryFrom (s : State) (va lvl tab : Nat) : Nat → Option Nat
  | 0 => none
  | n + 1 =>
    let a := tab + 8 * levelIndex lvl va
    if lvl = 4 then some a
    else
      let pte := s.peekDev a 8
      if pteReserved pte || !pteV pte || pteL pte then none else s.entryFrom va (lvl + 1) (ptePA pte + 16384 * ptePAL pte) n

def State.entryAt (s : State) (asid va : Nat) : Option Nat :=
  let e := s.peekDev (s.asidBase + 8 * asid) 8
  if !bit e 0 || bits e 52 12 != 0 || bits e 1 13 != 0 then none else s.entryFrom va 1 (bits e 14 38 * 16384) 4

/-! ### Controllers and their caches (R386, R387) -/

/-- The controller that translates a page (R386). -/
def controllerOf (asid va : Nat) : Nat := bits (va / 65536) 0 5 ^^^ bits (va / 65536) 5 5 ^^^ bits asid 0 5

/-- The channel, and with it the controller, that owns a physical address (R386). -/
def channelOf (pa : Nat) : Nat := bits pa 12 5 ^^^ bits pa 17 5

/-- The entry of a walk cache for a level of a walk. -/
def State.walkCached (s : State) (asid lvl va : Nat) : Option Nat :=
  (s.walks.find? (fun e =>
    e.ctl == controllerOf asid va && e.asid == asid && e.lvl == lvl && e.index == walkIndex lvl va)).map (·.val)

/-- An entry of a walk: as the walk cache holds it, or as the tables have it. -/
def State.walkRead (s : State) (asid va lvl a : Nat) : Nat := (s.walkCached asid lvl va).getD (s.peekDev a 8)

/-- The walk through the walk cache (R385, R387). -/
def State.walkVia (s : State) (asid va : Nat) : WalkEnd :=
  s.walkAsid (s.walkRead asid va) (s.walkRead asid va 0 (s.asidBase + 8 * asid)) va

/-- The pointers that a walk follows: level and entry. -/
def walkPath (read : Nat → Nat → Nat) (va lvl tab : Nat) : Nat → List (Nat × Nat)
  | 0 => []
  | n + 1 =>
    let pte := read lvl (tab + 8 * levelIndex lvl va)
    if pteReserved pte || !pteV pte || pteL pte || lvl == 4 then []
    else (lvl, pte) :: walkPath read va (lvl + 1) (ptePA pte + 16384 * ptePAL pte) n

/-- Keep the first `n` elements that a test selects, and all others. -/
def keepFirst {α : Type} (p : α → Bool) : Nat → List α → List α
  | _, [] => []
  | n, a :: r =>
    if p a then
      match n with
      | 0 => keepFirst p 0 r
      | m + 1 => a :: keepFirst p m r
    else a :: keepFirst p n r

/-- A walk enters its entry of the ASID table and its pointers in the walk cache of its controller: 1,024 entries, the least recently
used replaced (R387). -/
def State.noteWalk (s : State) (via : Bool) (asid va : Nat) : State :=
  let read := if via then s.walkRead asid va else fun _ a => s.peekDev a 8
  let e := read 0 (s.asidBase + 8 * asid)
  let c := controllerOf asid va
  let add := fun (l : List WalkEntry) (p : Nat × Nat) =>
    ({ ctl := c, asid := asid, lvl := p.1, index := walkIndex p.1 va, val := p.2 } : WalkEntry) ::
      l.filter (fun w => !(w.ctl == c && w.asid == asid && w.lvl == p.1 && w.index == walkIndex p.1 va))
  let all := ((0, e) :: walkPath read va 1 (bits e 14 38 * 16384) 3).foldl add s.walks
  { s with walks := keepFirst (fun w => w.ctl == c) 1024 all }

/-! ### Invalidation (R398, R399) -/

/-- Whether a cached translation covers an address; it is held by the controller of the address (R386). -/
def TlbEntry.covers (e : TlbEntry) (asid va : Nat) : Bool :=
  e.ctl == controllerOf asid va && e.asid == asid && (if e.large then e.page / 1024 == va / 67108864 else e.page == va / 65536)

/-- The first address and the size of the page of a cached translation. -/
def TlbEntry.base (e : TlbEntry) : Nat := if e.large then e.page / 1024 * 67108864 else 65536 * e.page
def TlbEntry.size (e : TlbEntry) : Nat := if e.large then 67108864 else 65536

/-- The first address and the reach of an entry of a walk cache. -/
def WalkEntry.reach (e : WalkEntry) : Nat := 2 ^ (56 - 10 * e.lvl)

/-- The first address and the size of the page that a block of the block cache belongs to. -/
def Block.pageBase (b : Block) : Nat := if b.large then b.vblock / 16384 * 67108864 else b.vblock / 16 * 65536
def Block.pageSize (b : Block) : Nat := if b.large then 67108864 else 65536

/-- Drop what a test selects by ASID, first address and size (R398): cached translations and pointers, and the blocks of the block cache,
written back first (and with them their records in the remap filters, R388). -/
def State.dropMaps (s : State) (hit : Nat → Nat → Nat → Bool) : State :=
  { s with
    tlb := s.tlb.filter (fun e => !hit e.asid e.base e.size)
    walks := s.walks.filter (fun e => !hit e.asid (e.index * e.reach) e.reach)
    cache := s.cache.filter (fun b => !hit b.asid b.pageBase b.pageSize) }

/-- Invalidate what a test selects (R398): what `dropMaps` drops, and the fetch views of the range `lo` to `hi` (file 05 R159): a fetch
begun before delivers no old bundle. -/
def State.invalidate (s : State) (hit : Nat → Nat → Nat → Bool) (lo hi : Nat) : State :=
  { s.dropMaps hit with
    strands := s.strands.map (fun (p : Nat × Strand) =>
      let st := p.2
      let c := s.coreOf (teamOf p.1)
      let g := (s.team (teamOf p.1)).asid
      let r : Renewal := { pos := s.log.length, scope := 2, course := courseOf c, core := c, range := some (lo, hi) }
      if st == {} || !hit g lo (hi - lo) then p else
      (p.1, { st with
        irenew := r.onto st.irenew
        bfetch := st.bfetch.filter (fun p => !hit g (NMap.get 0 st.b p.1).toNat 1)
        stale := match st.stale with
          | some (t, l) => if hit g t.toNat 1 then none else some (t, l)
          | none => none })) }

/-- First address and size of the page of an address: of 64 MiB where a leaf of level 3 maps it. -/
def State.pageSpan (s : State) (asid va : Nat) : Nat × Nat :=
  match s.walk asid va with
  | .leaf _ _ _ true => (va / 67108864 * 67108864, 67108864)
  | _ => (va / 65536 * 65536, 65536)

/-- What an invalidation of a range of an ASID selects: every page that meets it. -/
def meets (asid lo n g va size : Nat) : Bool := g == asid && va < lo + n && lo < va + size

/-- Invalidate the pages of an ASID that meet a range, whole (R398, R399). -/
def State.invalidateRange (s : State) (asid lo n : Nat) : State :=
  let last := s.pageSpan asid (lo + n - 1)
  s.invalidate (meets asid lo n) (s.pageSpan asid lo).1 (last.1 + last.2)

/-! ### The frame allocator (R390, R392) -/

/-- The pool-low event, when FREE falls below LOWMARK. -/
def State.poolLow (s : State) (before : Nat) : State :=
  if s.free < s.lowmark && before ≥ s.lowmark then s.post { kind := 3, code := 1, tinfo := s.free } else s

/-- Take a frame off the free list. -/
def State.takeFrame (s : State) : State × Option Nat :=
  if s.free = 0 then (s, none) else
  let f := s.freeHead
  let next := bits (s.peek f 8) 16 36 * 65536
  (({ s with free := s.free - 1, freeHead := next }).poolLow s.free, some f)

/-- Put a frame on the free list: its first dword names the next (R390). -/
def State.giveFrame (s : State) (f : Nat) : State :=
  { (s.refill f 65536 (leBytes 8 s.freeHead)) with freeHead := f, free := s.free + 1 }

/-- Mapping count of a frame; a frame that no index entry holds counts its one range (R397). -/
def State.mapsOf (s : State) (f : Nat) : Nat := NMap.get 0 s.mapCount f

/-- One mapping fewer of a frame; at zero it is free (R394). -/
def State.unmapFrame (s : State) (f : Nat) : State :=
  if s.mapsOf f ≤ 1 then ({ s with mapCount := NMap.set 0 s.mapCount f 0 }).giveFrame f
  else { s with mapCount := NMap.set 0 s.mapCount f (s.mapsOf f - 1) }

/-- The stream whose key-value range holds an address (R393). -/
def State.kvStream (s : State) (asid va : Nat) : Option Nat :=
  (s.streams.find? (fun p => p.2.live && p.2.asid == asid && p.2.kvbase ≤ va && va < p.2.kvbase + 2 ^ 32)).map (·.1)

/-- The stream reservation that a grow allocation at an address would exceed (R393). -/
def State.kvSpent (s : State) (asid va : Nat) : Bool :=
  match s.kvStream asid va with
  | some n => decide ((s.stream n).kvpages ≤ (s.stream n).kvused)
  | none => false

/-- A grow allocation (R391-R393): false where the list is empty or the reservation is used up. What is held of its entry is invalidated
(R399); the fetch views hold nothing of a frame that is new. -/
def State.growPage (s : State) (asid va pte at_ : Nat) : State × Bool :=
  if s.kvSpent asid va then (s, false) else
  match s.takeFrame with
  | (_, none) => (s, false)
  | (s, some f) =>
    let s := s.refill f 65536 []
    let s := (s.poke at_ (leBytes 8 (f + pte % 512 / 2 * 2 + 1)) 3).dropMaps (meets asid (va / 65536 * 65536) 65536)
    let s := match s.kvStream asid va with
      | some n => s.updStream n (fun st => { st with kvused := st.kvused + 1 })
      | none => s
    ({ s with mapCount := NMap.set 0 s.mapCount f 1 }, true)

/-- A level-4 table for a grow entry of level 3 (R391, R399). -/
def State.growTable (s : State) (asid va pte at_ : Nat) : State × Bool :=
  match s.takeFrame with
  | (_, none) => (s, false)
  | (s, some f) =>
    let entry := leBytes 8 (bits pte 2 7 * 4 + 2)
    let entry := match entry with | b :: r => (b ||| 128#8) :: r | [] => []
    let attr := leBytes 8 (s.peekDev (at_ + 8192) 8)
    let s := s.refill f 65536 ((List.replicate 1024 entry).flatten ++ (List.replicate 1024 attr).flatten)
    ((s.poke at_ (leBytes 8 (f + 1)) 3).dropMaps (meets asid (va / 67108864 * 67108864) 67108864), true)

/-- A grow allocation at a level-3 entry needs a frame for the table and one for the page; where one is missing no entry changes
(R392). -/
def State.canGrowTable (s : State) (asid va : Nat) : Bool := 2 ≤ s.free && !s.kvSpent asid va

/-- The result of a translation. -/
inductive Xlate where
  | ok (pa leaf attr : Nat) (large : Bool)
  | page
  | prot
deriving DecidableEq, Repr

/-- Walk, growing where an entry says so (R384, R391), if PERM allows the access, which is checked first (file 05 R188); `via`: with the
pointers that the walk cache holds. -/
def State.walkGrow (s : State) (via : Bool) (perm : Nat → Bool) (asid va : Nat) : Nat → State × Xlate
  | 0 => (s, .page)
  | n + 1 =>
    match (if via then s.walkVia asid va else s.walk asid va) with
    | .leaf pte attr _ large =>
      (s, .ok (ptePA pte + (if large then va % 67108864 else va % 65536)) pte attr large)
    | .grow lvl pte a =>
      if !perm (ptePerm pte) then (s, .prot) else
      if lvl == 3 then
        if pteL pte then (s, .prot)
        else if !s.canGrowTable asid va then (s, .page)
        else match s.growTable asid va pte a with
          | (s, true) => s.walkGrow via perm asid va n
          | (_, false) => (s, .page)
      else match s.growPage asid va pte a with
        | (s, true) => s.walkGrow via perm asid va n
        | (_, false) => (s, .page)
    | .page => (s, .page)
    | .prot => (s, .prot)

/-- A page of a task's declared ranges. -/
def inRanges (rs : List (Nat × Nat)) (va : Nat) : Bool := rs.any (fun r => r.1 ≤ va && va < r.1 + r.2)

/-- The frame under which launch `l` sees a renamed page (file 11 R345): its own version or the newest earlier one where its
task declares the page; otherwise any live version, as a race. -/
def State.versionOf (s : State) (l : Nat) (asid va pa : Nat) : State × Nat :=
  let vs := s.versions.filter (fun v => v.asid == asid && v.page == va / 65536)
  if vs.isEmpty then (s, pa) else
  let seen := fun (seq : Nat) =>
    match ((vs.filter (fun v => v.seq ≤ seq)).foldl (fun b v =>
        match b with
        | none => some v
        | some w => if w.seq ≤ v.seq then some v else some w) (none : Option Version)) with
    | some v => v.frame + va % 65536
    | none => pa
  match (s.launch l).task.bind (fun t => NMap.get none s.tasks t) with
  | some t =>
    if inRanges (t.reads ++ t.writes) va then (s, seen t.seq) else
    ({ s with freeN := s.freeN + 1 }, ((pa :: vs.map (fun v => v.frame + va % 65536))[Config.raceChoice s.freeN % (vs.length + 1)]?).getD pa)
  | none =>
    ({ s with freeN := s.freeN + 1 }, ((pa :: vs.map (fun v => v.frame + va % 65536))[Config.raceChoice s.freeN % (vs.length + 1)]?).getD pa)

/-- A translation that its controller uses becomes its most recently used entry; it holds 16,384 (R387). -/
def State.useTlb (s : State) (asid va leaf attr : Nat) (large : Bool) : State :=
  let c := controllerOf asid va
  let e : TlbEntry := { ctl := c, asid := asid, page := va / 65536, large := large, leaf := leaf, attr := attr }
  { s with tlb := keepFirst (fun e => e.ctl == c) 16384 (e :: s.tlb.filter (fun e => !e.covers asid va)) }

/-- Whether the walk is made through pointers of the walk cache that the tables no longer give (R385). -/
def State.staleWalk (s : State) (asid va : Nat) : State × Bool :=
  if s.walkVia asid va = s.walk asid va then (s, false)
  else ({ s with freeN := s.freeN + 1 }, Config.staleCached s.freeN)

/-- Translate by a walk. -/
def State.translateWalk (s : State) (perm : Nat → Bool) (l asid va : Nat) : State × Xlate :=
  let (s, via) := s.staleWalk asid va
  match s.walkGrow via perm asid va 4 with
  | (s, .ok pa leaf attr large) =>
    let (s, pa) := ((s.noteWalk via asid va).useTlb asid va leaf attr large).versionOf l asid va pa
    (s, .ok pa leaf attr large)
  | r => r

/-- Translate an address of an ASID for launch `l` (0: no launch), for an access that `perm` allows: by the translation cache, whose entry may also be one that the tables no
longer give (R385), or by a walk. -/
def State.translate (s : State) (perm : Nat → Bool) (l asid va : Nat) : State × Xlate :=
  match s.tlb.find? (fun e => e.covers asid va) with
  | none => s.translateWalk perm l asid va
  | some e =>
    let fresh := match s.walk asid va with
      | .leaf leaf attr _ _ => e.leaf == leaf && e.attr == attr
      | _ => false
    if fresh || Config.staleCached s.freeN then
      let pa := ptePA e.leaf + (if e.large then va % 67108864 else va % 65536)
      let s := if fresh then s else { s with freeN := s.freeN + 1 }
      let (s, pa) := (s.useTlb asid va e.leaf e.attr e.large).versionOf l asid va pa
      (s, .ok pa e.leaf e.attr e.large)
    else { s with freeN := s.freeN + 1 }.translateWalk perm l asid va

/-! ### The physical address map (file 18 R450, file 20 R479) -/

/-- What stands at a physical address. -/
inductive Target where
  | dram
  | pcie (port addr : Nat)
  | ctrl (offset : Nat)
  /-- The reserved quarter of the space, and GDDR7 addresses beyond the memory. -/
  | absent
deriving DecidableEq, Repr

def ctrlBase : Nat := 0xFFFFFC0000000

/-- The firmware SRAM of the plinth, 256 KiB (file 20 R483): it lies outside the 52 bits of the physical space, and only the keystone's
accesses come to it. -/
def sramBase : Nat := 2 ^ 52
def sramSize : Nat := 262144

def targetOf (pa : Nat) : Target :=
  if sramBase ≤ pa && pa < sramBase + sramSize then .dram else
  match bits pa 50 2 with
  | 0 => if pa < 192 * 2 ^ 30 then .dram else .absent
  | 2 => .pcie (bits pa 48 2) (bits pa 0 48)
  | 3 => if ctrlBase ≤ pa && pa < ctrlBase + 67108864 then .ctrl (pa - ctrlBase) else .absent
  | _ => .absent

/-! ### The block cache (file 13 R376-R379, file 14 R388) -/

/-- Slice number over the store courses and set of a location (R377). -/
def State.homeOf (s : State) (asid va : Nat) : Nat × Nat :=
  let v := bits va 12 44
  let f := (bits v 0 16) ^^^ (bits v 16 16) ^^^ (bits v 32 12) ^^^ asid
  let n := 32 * s.storeCourses.length
  (if n = 0 then 0 else f % n, (bits v 0 7) ^^^ (bits v 7 7))

/-- The course of the slice that holds a location. -/
def State.homeCourse (s : State) (asid va : Nat) : Nat :=
  (s.storeCourses[(s.homeOf asid va).1 / 32]?).getD 0

/-- d of R306: courses between the core and the slice of a location. -/
def State.distance (s : State) (k va : Nat) : Nat :=
  let a := courseOf (s.coreOf (teamOf k))
  let b := s.homeCourse (s.team (teamOf k)).asid va
  Nat.min 5 (Nat.max a b - Nat.min a b)

/-- The victim of a fill among the blocks of a full set, least recently used last (R379), by the mapping counts as they stand; `fillP`: a P
block is to be filled. -/
def victim (maps : Block → Nat) (ways : List Block) (fillP : Bool) : Option Block :=
  let ps := ways.filter (·.cls == 0)
  if fillP && ps.length ≥ 12 then ps.getLast? else
  if ways.length < 16 then none else
  match (ways.filter (·.cls == 2)).getLast? with
  | some b => some b
  | none =>
    let ss := ways.filter (·.cls == 1)
    match ss.foldl (fun m b => match m with
        | none => some b
        | some w => if maps b ≤ maps w then some b else some w) (none : Option Block) with
    | some b => some b
    | none => ps.getLast?

/-- The mapping count of a block's frame. -/
def State.blockMaps (s : State) (b : Block) : Nat := s.mapsOf (b.pblock / 16 * 65536)

/-- The remap filter of a channel (R388): the blocks of the block cache whose physical block the channel holds, most recently used first. -/
def State.remapFilter (s : State) (ch : Nat) : List Block := s.cache.filter (fun b => channelOf (4096 * b.pblock) == ch)

/-- Before a fill of a physical block, its channel's filter drops the block held under another virtual block, and when it is full its
least recently used record with its block (R388). -/
def State.refilter (s : State) (asid vb pb : Nat) : State :=
  let s : State := { s with cache := s.cache.filter (fun b => !(b.pblock == pb && !(b.asid == asid && b.vblock == vb))) }
  let held := s.remapFilter (channelOf (4096 * pb))
  if !held.isEmpty && Config.filterFull held.length then
    match held.getLast? with
    | some v => { s with cache := s.cache.filter (· != v) }
    | none => s
  else s

/-- An access to one sector of a cached page: whether it hits, and the cache after it (R378, R379, R388). -/
def State.touchCache (s : State) (asid va pa leaf : Nat) (write : Bool) : State × Bool :=
  let vb := va / 4096
  let pb := pa / 4096
  let sec := 2 ^ (va % 4096 / 256)
  let home := s.homeOf asid va
  let maps := s.mapsOf (pa / 65536 * 65536)
  let cls := if ptePin leaf then 0 else if maps ≥ 2 then 1 else 2
  match s.cache.find? (fun b => b.asid == asid && b.vblock == vb && b.pblock == pb) with
  | some b =>
    let hit := b.valid &&& sec != 0
    let b' := { b with valid := b.valid ||| sec, dirty := if write then b.dirty ||| sec else b.dirty, cls := cls }
    ({ s with cache := b' :: s.cache.filter (· != b) }, hit)
  | none =>
    let s := s.refilter asid vb pb
    -- a block of the same virtual block held for an older mapping goes as well
    let others := s.cache.filter (fun b => !(b.asid == asid && b.vblock == vb))
    let large := s.tlb.any (fun e => e.covers asid va && e.large)
    let ways := others.filter (fun b => b.slice == home.1 && b.set == home.2)
    let kept := match victim s.blockMaps ways (cls == 0) with
      | some v => others.filter (· != v)
      | none => others
    ({ s with cache := { slice := home.1, set := home.2, asid := asid, vblock := vb, pblock := pb, valid := sec,
                         dirty := if write then sec else 0, cls := cls, large := large } :: kept }, false)

/-- An access of a unit of the plinth or of the host to a sector at its home (R377, R378). -/
def State.touchAt (s : State) (asid va pa : Nat) (write : Bool) : State :=
  match s.walk asid va with
  | .leaf pte _ _ _ => if pteType pte < 2 then (s.touchCache asid va pa pte write).1 else s
  | _ => s

/-- The same for the sectors of `n` bytes. -/
def State.touchSpan (s : State) (asid va n : Nat) (write : Bool) : State :=
  if n = 0 then s else
  s.forEach (List.range ((va % 256 + n + 255) / 256)) (fun s i =>
    let a := if i = 0 then va else va / 256 * 256 + 256 * i
    match s.walk asid a with
    | .leaf pte _ _ large => s.touchAt asid a (ptePA pte + (if large then a % 67108864 else a % 65536)) write
    | _ => s)

/-! ### Checked accesses -/

/-- The three kinds of access PERM names (R382), and an atomic, which reads and writes. -/
inductive AccessKind where
  | read
  | write
  | exec
  | update
deriving DecidableEq, Repr

def AccessKind.allowed (k : AccessKind) (perm : Nat) : Bool :=
  match k with
  | .read => bit perm 0
  | .write => bit perm 1
  | .exec => bit perm 2
  | .update => bit perm 0 && bit perm 1

def AccessKind.writes : AccessKind → Bool
  | .write => true
  | .update => true
  | _ => false

/-- A translated and permitted access, or the fault it meets (file 03 R83, R85; file 14 R384). -/
inductive Access where
  | ok (pa type leaf attr : Nat)
  | page
  | prot
deriving DecidableEq, Repr

/-- Whether PERM allows an access at a privilege level: it binds level 0. -/
def AccessKind.permits (k : AccessKind) (level perm : Nat) : Bool := level != 0 || k.allowed perm

/-- Translate and check an access at a privilege level: PERM binds level 0; a frame outside GDDR7 needs a type other than
normal; the control block is closed to level 0. -/
def State.access (s : State) (l asid level va : Nat) (kind : AccessKind) : State × Access :=
  match s.translate (kind.permits level) l asid va with
  | (s, .page) => (s, .page)
  | (s, .prot) => (s, .prot)
  | (s, .ok pa leaf attr _) =>
    let frozen := kind.writes && s.mapsOf (pa / 65536 * 65536) ≥ 2
    if !kind.permits level (ptePerm leaf) || frozen then (s, .prot) else
    match targetOf pa with
    | .dram => (s, .ok pa (pteType leaf) leaf attr)
    | .pcie _ _ => (s, if pteType leaf == 0 then .prot else .ok pa (pteType leaf) leaf attr)
    | .ctrl _ => (s, if level == 0 || pteType leaf == 0 then .prot else .ok pa (pteType leaf) leaf attr)
    | .absent => (s, .prot)

/-- Where an address lies in the firmware SRAM: the keystone's low addresses (file 20 R483; log 119). -/
def sramAt (k va : Nat) : Option Nat := if teamOf k = keystoneTeam && va < sramSize then some (sramBase + va) else none

/-- An access of strand `k`. -/
def State.strandAccess (s : State) (k va : Nat) (kind : AccessKind) : State × Access :=
  let t := s.team (teamOf k)
  match sramAt k va with
  | some pa => (s, .ok pa 2 0 0)
  | none => s.access t.launch t.asid (s.strand k).level va kind

end Sys2Proof.Machine
end

