-- ==== Sys2Proof/Machine/Jcb.lean ====
section
/-! DEFINITION. Job control blocks (file 07 R267, R268, R285-R288): updates at the home as atomics at .sys, and the instructions'
reads of them. -/

namespace Sys2Proof.Machine

/-- The first four dwords of a JCB. -/
structure JcbData where
  done : Nat
  expect : Nat
  flags : Nat
  ecode : Nat
  ecount : Nat
  edetail : Nat
  eaddr : Nat
deriving DecidableEq, Repr

/-- A JCB as it stands at its home. -/
def State.readJcb (s : State) (pa : Nat) : JcbData :=
  { done := s.peek pa 4, expect := s.peek (pa + 4) 4, flags := s.peek (pa + 8) 1 % 128, ecode := s.peek (pa + 16) 1,
    ecount := s.peek (pa + 18) 2, edetail := s.peek (pa + 20) 4, eaddr := s.peek (pa + 24) 7 }

def JcbData.bytes (j : JcbData) : List Byte :=
  leBytes 4 j.done ++ leBytes 4 j.expect ++ leBytes 8 (j.flags % 128) ++
    leBytes 8 (j.ecode % 256 + 65536 * (j.ecount % 65536) + 2 ^ 32 * j.edetail) ++ leBytes 8 (j.eaddr % 2 ^ 56)

def JcbData.complete (j : JcbData) : Bool := j.expect ≤ j.done

/-- The value of JWAIT and JFLAGS (R287). -/
def JcbData.value (j : JcbData) : Nat := j.flags % 128 + 256 * j.ecode + 65536 * j.ecount

/-- Count completions: DONE only grows, so that a complete JCB stays complete (R288). -/
def JcbData.counted (j : JcbData) (n : Nat) : JcbData := { j with done := Nat.min (j.done + n) (2 ^ 32 - 1) }

/-- Record an error: the first gives code, detail and address; every one counts, up to 65,535 (R267). -/
def JcbData.error (j : JcbData) (code detail addr : Nat) : JcbData :=
  if j.ecount = 0 then { j with ecode := code % 256, ecount := 1, edetail := detail % 2 ^ 32, eaddr := addr % 2 ^ 56 }
  else { j with ecount := if j.ecount < 65535 then j.ecount + 1 else 65535 }

def JcbData.update (j : JcbData) (u : JcbUpdate) : JcbData :=
  let j := match u.err with
    | some (code, detail, addr) => j.error code detail addr
    | none => j
  { (j.counted u.count) with flags := j.flags ||| u.flags }

/-- An update of a JCB at physical address `pa`, one atomic at .sys (R267). -/
def State.updJcb (s : State) (ag : Agent) (course core : Nat) (pa : Nat) (f : JcbData → JcbData) : State :=
  let bs := (f (s.readJcb pa)).bytes
  s.publishAt ag course core 3 true ((List.range bs.length).zip bs |>.map (fun p => (pa + p.1, p.2)))

/-- A hardware update of the JCB at `va` under an ASID; where it cannot be made it is lost and a record of kind 6 is posted
(R267, R402). While the home slices move it is held (file 13 R375). -/
def State.hwJcb (s : State) (lh asid va : Nat) (u : JcbUpdate) : State :=
  if va ≥ 2 ^ 56 then s.post { kind := 6, code := 1, asid := asid, lh := lh, tinfo := va } else
  if s.holding then { s with held := s.held ++ [.jcb lh asid va u] } else
  match s.access 0 asid 0 va .write with
  | (s, .ok pa 0 leaf _) => (s.touchCache asid va pa leaf true).1.updJcb .plinth 6 255 pa (fun j => j.update u)
  | (s, _) => s.post { kind := 6, code := 1, asid := asid, lh := lh, tinfo := va }

/-- A hardware update of a launch's JCB under the launch's ASID; the JCB of a frame program is internal (file 11 R336). -/
def State.launchJcb (s : State) (l : Nat) (u : JcbUpdate) : State :=
  let L := s.launch l
  match L.jcb with
  | none => s
  | some va => s.hwJcb L.handle ((L.hdr.map (·.asid)).getD L.subAsid) va u

/-- Post an error to a launch's JCB (R268). -/
def State.jcbError (s : State) (l code detail addr : Nat) : State := s.launchJcb l { err := some (code, detail, addr) }

end Sys2Proof.Machine
end

