-- ==== Sys2Proof/Machine/Streams.lean ====
section
/-! DEFINITION. The stream scheduler (file 11 R330-R341, R353-R354): contracts and admission, rings, the drop and climb rules,
stream events. -/

namespace Sys2Proof.Machine

/-- The physical address of a readable byte of GDDR7 under an ASID, as the tables map it; `normal`: on a page of normal memory only. -/
def State.plinthAddr (s : State) (normal : Bool) (asid va : Nat) : Option Nat :=
  match s.walk asid va with
  | .leaf pte _ _ large =>
    let pa := ptePA pte + (if large then va % 67108864 else va % 65536)
    if bit (ptePerm pte) 0 && targetOf pa == .dram && (!normal || pteType pte == 0) then some pa else none
  | _ => none

/-- Read bytes of memory under an ASID for a plinth unit (it observes every publication at .dev); `none` where a byte cannot be read. -/
def State.plinthRead (s : State) (asid va n : Nat) (normal : Bool := false) : Option (List Byte) :=
  if va + n > 2 ^ 56 then none else
  match s.plinthAddr normal asid va, s.plinthAddr normal asid (va + n - 1) with
  | some a, some b =>
    some ((List.range n).map (fun i => s.byteDev (if va / 65536 == (va + i) / 65536 then a + i else b - (n - 1 - i))))
  | _, _ => none

/-- A plinth unit's access grows the pages it first touches, if it may read them (file 14 R384, R391), and fills its sectors in the block
cache; a published write makes them dirty (file 13 R377, R378). -/
def State.plinthTouch (s : State) (asid va n : Nat) (write : Bool := false) : State :=
  let one := fun (s : State) (v : Nat) => match s.walk asid v with
    | .grow _ _ _ => (s.walkGrow false (fun p => bit p 0) asid v 4).1
    | _ => s
  if va + n > 2 ^ 56 then s else (one (one s va) (va + n - 1)).touchSpan asid va n write

def dwordOf (bs : List Byte) (i : Nat) : Nat := leNat ((bs.drop (8 * i)).take 8)

/-- Post a stream event (R338, file 15 R402). -/
def State.streamEvent (s : State) (n code tinfo k : Nat) : State :=
  s.post { kind := 2, code := code, asid := (s.stream n).asid, subj := n, tinfo := tinfo, aux := k }

/-! ### Rings (R339-R341) -/

/-- The scheduler's update of a ring header, published at .sys (R339); held while the home slices move (file 13 R375). -/
def State.writeRing (s : State) (asid : Nat) (r : Ring) : State :=
  if s.holding then { s with held := s.held ++ [.ring asid r] } else
  let s := s.plinthTouch asid r.hdr 64 true
  match s.walk asid r.hdr with
  | .leaf pte _ _ large =>
    s.poke (ptePA pte + (if large then r.hdr % 67108864 else r.hdr % 65536))
      (leBytes 8 r.rsv ++ leBytes 8 r.pub ++ leBytes 8 r.ready ++ leBytes 8 r.poison) 3
  | _ => s

def setBit (x i : Nat) : Nat := if bit x i then x else x + 2 ^ i
def clrBit (x i : Nat) : Nat := if bit x i then x - 2 ^ i else x

/-- FRAME.rsv on a ring (R340) for frame `k`: its new state and the index, if it is not full. -/
def Ring.reserve (r : Ring) (now k : Nat) : Option (Ring × Nat) :=
  if r.rsv - r.pub = r.nslot then none else
  let i := r.rsv % r.nslot
  some ({ r with ready := clrBit r.ready i, poison := clrBit r.poison i, rsv := r.rsv + 1, times := r.times ++ [(r.rsv, now, k)] }, r.rsv)

/-- Advance PUB over the published slots. -/
def Ring.advance (r : Ring) : Nat → Ring
  | 0 => r
  | n + 1 =>
    if r.pub < r.rsv && bit r.ready (r.pub % r.nslot) then
      Ring.advance { r with pub := r.pub + 1, times := r.times.filter (fun p => p.1 != r.pub) } n
    else r

/-- FRAME.pub of an index (R340). -/
def Ring.publish (r : Ring) (i : Nat) : Option Ring :=
  if i < r.pub || r.rsv ≤ i || bit r.ready (i % r.nslot) then none
  else some (Ring.advance { r with ready := setBit r.ready (i % r.nslot) } 65)

/-- Poison the slot at PUB (R341): it counts as published with its POISON bit set. -/
def Ring.doPoison (r : Ring) : Ring :=
  let i := r.pub % r.nslot
  Ring.advance { r with ready := setBit r.ready i, poison := setBit r.poison i } 65

/-! ### Contracts and admission (R330-R334) -/

/-- A contract as read (R330). -/
structure Contract where
  dw : List Nat
deriving DecidableEq, Repr

def Contract.d (c : Contract) (i : Nat) : Nat := (c.dw[i]?).getD 0
def Contract.period (c : Contract) : Nat := bits (c.d 0) 0 32
def Contract.deadline (c : Contract) : Nat := bits (c.d 0) 32 32
def Contract.nrungs (c : Contract) : Nat := bits (c.d 6) 0 3 + 1
def Contract.minrung (c : Contract) : Nat := bits (c.d 6) 4 3
def Contract.codec (c : Contract) : Nat := bits (c.d 6) 14 2
def Contract.bands (c : Contract) : Nat := bits (c.d 6) 16 4 + 1
def Contract.kvpages (c : Contract) : Nat := bits (c.d 6) 32 32
/-- COST, W8, H8 of rung r. -/
def Contract.rung (c : Contract) (r : Nat) : Nat × Nat × Nat :=
  (bits (c.d (8 + r)) 0 32, bits (c.d (8 + r)) 32 12, bits (c.d (8 + r)) 44 12)

/-- A ring header as STOPEN finds it (R339), in normal memory: NSLOT and SLOTB if it satisfies the rules. A `restored` frame ring may begin
after the slots copied to it, with RSV = PUB (file 21 R494; log 118). -/
def State.ringHeader (s : State) (asid va : Nat) (restored : Bool := false) : Option (Nat × Nat) :=
  match s.plinthRead asid va 64 true with
  | none => none
  | some bs =>
    let d := dwordOf bs
    let nslot := bits (d 4) 0 7
    let slotb := bits (d 4) 32 32
    if d 0 == d 1 && (d 0 == 0 || restored && d 0 ≤ nslot) && d 2 == 0 && d 3 == 0 && d 5 == 0 && bits (d 4) 7 25 == 0 && d 6 == 0 && d 7 == 0 &&
        2 ≤ nslot && nslot ≤ 64 && slotb != 0 && slotb % 65536 == 0 then some (nslot, slotb) else none

/-- RSV and PUB of a frame ring as STOPEN finds it (file 21 R494). -/
def State.ringIndex (s : State) (asid va : Nat) : Nat := ((s.plinthRead asid va 64 true).map (fun bs => dwordOf bs 0)).getD 0

def ringPages (h : Nat × Nat) : Nat := 1 + h.1 * h.2 / 65536

/-- R331: the contract is malformed. -/
def State.malformed (s : State) (asid : Nat) (c : Contract) : Bool :=
  let rs := (List.range c.nrungs).map c.rung
  c.period < 1000000 || c.deadline < 1 || c.deadline > c.period || c.minrung > c.nrungs - 1 || bits (c.d 6) 16 4 == 0 ||
  [2, 3, 4, 5, 7].any (fun i => bits (c.d i) 56 8 != 0) ||
  bits (c.d 6) 12 2 != 0 || bit (c.d 6) 7 || bit (c.d 6) 3 ||
  c.d 3 % 64 != 0 || c.d 4 % 64 != 0 || c.d 5 % 65536 != 0 || c.d 7 % 65536 != 0 || c.d 2 % 64 != 0 ||
  rs.any (fun r => r.2.1 < 1 || r.2.1 > 480 || r.2.2 < 1 || r.2.2 > 270) ||
  (rs.zip (rs.drop 1)).any (fun p => p.1.1 < p.2.1 || p.1.2.1 < p.2.2.1 || p.1.2.2 < p.2.2.2) ||
  (s.ringHeader asid (bits (c.d 3) 0 56) true).isNone || (s.ringHeader asid (bits (c.d 4) 0 56)).isNone

def ceilDiv (a b : Nat) : Nat := if b = 0 then 0 else (a + b - 1) / b

/-- U of R333. -/
def capUnits (cost period : Nat) : Nat := ceilDiv (cost * 256 * 65536) period

/-- STG of R333 for a width, sample size and band count. -/
def stagePages (w8 bps bands : Nat) : Nat := 1 + bands * (ceilDiv (96 * (8 * w8) * bps) 65536)

def Stream.u (st : Stream) : Nat := capUnits ((st.rungs[st.minrung]?).getD (0, 0, 0)).1 st.period
def Stream.bps (st : Stream) : Nat := if st.codec % 2 = 1 then 2 else 1
def Stream.stg (st : Stream) : Nat := stagePages ((st.rungs[0]?).getD (0, 0, 0)).2.1 st.bps st.bands
def Stream.res (st : Stream) : Nat :=
  st.kvpages + ringPages (st.frame.nslot, st.frame.slotb) + ringPages (st.bits.nslot, st.bits.slotb)
/-- Luma samples of rung 0. -/
def Stream.area (st : Stream) : Nat :=
  let r := (st.rungs[0]?).getD (0, 0, 0)
  64 * r.2.1 * r.2.2

def State.liveStreams (s : State) : List (Nat × Stream) := s.streams.filter (·.2.live)

/-- Whether the encoder loads of a list of streams stay within one engine, 62,208 / 190,000 samples a cycle, compared exactly
(R333). -/
def engineFits (l : List (Nat × Nat)) : Bool :=
  -- sum of area/period as a fraction
  let f := l.foldl (fun (a : Nat × Nat) p => (a.1 * p.2 + p.1 * a.2, a.2 * p.2)) (0, 1)
  f.1 * 190000 ≤ 62208 * f.2

/-- The lowest engine on which a load fits. -/
def State.findEngine (s : State) (area period : Nat) : Option Nat :=
  (List.range 16).find? (fun e =>
    engineFits ((area, period) :: (s.liveStreams.filter (fun p => p.2.engine == e)).map (fun p => (p.2.area, p.2.period))))

def sumBy (l : List (Nat × Stream)) (f : Stream → Nat) : Nat := l.foldl (fun a p => a + f p.2) 0

/-- STOPEN for an owner ASID (R333, R334): the state after it, and the value for aD. -/
def State.accept (s : State) (asid va : Nat) : State × Nat :=
  let refuse := fun (c : Nat) => (s, 2 ^ 63 + c)
  let s0 := s.plinthTouch asid va 128
  match s0.plinthRead asid va 128 with
  | none => refuse 2
  | some bs =>
    let c : Contract := { dw := (List.range 16).map (dwordOf bs) }
    let s := (s0.plinthTouch asid (bits (c.d 3) 0 56) 64).plinthTouch asid (bits (c.d 4) 0 56) 64
    let refuse := fun (c : Nat) => (s, 2 ^ 63 + c)
    if s.malformed asid c then refuse 1 else
    if va % 64 != 0 then refuse 2 else
    let fh := (s.ringHeader asid (c.d 3) true).getD (2, 65536)
    let n := s.ringIndex asid (c.d 3)
    let bh := (s.ringHeader asid (c.d 4)).getD (2, 65536)
    let live := s.liveStreams
    let start := if c.d 1 = 0 || c.d 1 < s.cycle + c.period then s.cycle + c.period else c.d 1
    let st : Stream :=
      { live := true, asid := asid, period := c.period, deadline := c.deadline, t0 := start, fprog := c.d 2, stage := c.d 5,
        kvpages := c.kvpages, kvbase := c.d 7,
        rtimeout := if bits (c.d 6) 20 12 = 0 then c.deadline else bits (c.d 6) 20 12 * 65536,
        bands := c.bands, codec := c.codec, climb := if bits (c.d 6) 8 4 = 0 then 3 else bits (c.d 6) 8 4,
        minrung := c.minrung, rungs := (List.range c.nrungs).map c.rung,
        frame := { hdr := c.d 3, nslot := fh.1, slotb := fh.2, rsv := n, pub := n }, bits := { hdr := c.d 4, nslot := bh.1, slotb := bh.2 } }
    match (List.range 512).find? (fun n => !(s.stream n).live) with
    | none => refuse 3
    | some id =>
      if sumBy live Stream.u + st.u > s.cap then refuse 4 else
      match s.findEngine st.area st.period with
      | none => refuse 5
      | some e =>
        if sumBy live Stream.res + st.res > s.resvl then refuse 6 else
        if sumBy live Stream.stg + st.stg > s.stagel then refuse 7 else
        (s.updStream id (fun old => { st with engine := e, irq := old.irq }), id)

/-! ### Frame jobs (R337, R353) -/

def Stream.job (st : Stream) (k : Nat) : Option Job := st.jobs.find? (·.k == k)

def Stream.updJob (st : Stream) (k : Nat) (f : Job → Job) : Stream :=
  { st with jobs := st.jobs.map (fun j => if j.k == k then f j else j) }

/-- COST of the tasks of a frame job that are submitted and not complete, the largest (R353). -/
def State.remaining (s : State) (n k : Nat) : Nat :=
  (s.tasks.filterMap (·.2)).foldl (fun m t => if t.job == some (n, k) then Nat.max m t.cost else m) 0

/-- FRAME.chk (R353). -/
def State.frameCheck (s : State) (n k : Nat) : State :=
  let st := s.stream n
  match st.job k with
  | none => s
  | some j =>
    if j.dk < s.cycle + 256 * s.remaining n k && !j.drop && st.rung < st.minrung then
      s.updStream n (fun st => { (st.updJob k (fun j => { j with drop := true })) with rung := st.rung + 1, ontime := 0 })
    else s

/-- The climb rule of the first FRAME.pub of a job (R353), and whether the frame met its deadline. -/
def State.frameClimb (s : State) (n k : Nat) : State × Bool :=
  let st := s.stream n
  match st.job k with
  | none => (s, true)
  | some j =>
    let met := decide (s.cycle ≤ j.dk)
    if j.published then (s, met) else
    let s := s.updStream n (fun st =>
      let st := st.updJob k (fun j => { j with published := true })
      if met && !j.drop then
        if st.ontime + 1 ≥ st.climb && st.rung > 0 then { st with rung := st.rung - 1, ontime := 0 }
        else { st with ontime := st.ontime + 1 }
      else { st with ontime := 0 })
    (if !met && st.rung == st.minrung then s.streamEvent n 2 0 k else s, met)

/-- Free a closed stream (R335): table entry, queue, capacity, encoder share and reservations; IRQ clears (file 18 R453). -/
def State.freeStream (s : State) (n : Nat) : State := s.updStream n (fun _ => {})

/-- R335: a closed stream ends when its last frame job has ended and the encoder has published that job's frame. -/
def State.tryFree (s : State) (n : Nat) : State :=
  let st := s.stream n
  if st.live && st.closed && st.jobs.isEmpty && st.deferred.isEmpty && st.encJobs.isEmpty then s.freeStream n else s

/-- Whether a live launch belongs to a frame job. -/
def State.jobActive (s : State) (n k : Nat) : Bool := s.launches.any (fun p => p.2.live && p.2.job == some (n, k))

/-- A frame job ends when all its launches have exited (R337). -/
def State.jobEnd (s : State) (job : Option (Nat × Nat)) : State :=
  match job with
  | none => s
  | some (n, k) =>
    if s.jobActive n k then s
    else (s.updStream n (fun st => { st with jobs := st.jobs.filter (fun j => j.k != k) })).tryFree n

end Sys2Proof.Machine
end

