-- ==== Sys2Proof/Machine/Launches.lean ====
section
/-! DEFINITION. Launches, teams and the task distributor (file 01 R15, R19-R23; file 11 R342-R351; file 15 R409, R411): headers
and their refusal, binding, the dependence table, renaming, selection and placement, completion. -/

namespace Sys2Proof.Machine

/-! ### Launch headers (file 01 R19, R20) -/

/-- The fields of a header's dwords. -/
def headerOf (d : Nat → Nat) : LaunchHdr :=
  { entry := bits (d 0) 0 56, handler := bits (d 1) 0 56, trapen := bits (d 2) 56 7, asid := bits (d 2) 40 16,
    xp := bits (d 2) 29 11, wp := bits (d 2) 18 11, tiles := bits (d 2) 12 6, gang := bit (d 2) 11, strands := bits (d 2) 8 3,
    cores := bits (d 2) 0 8, ww := (List.range 6).map (fun i => bits (d 3) (7 * i) 7), widbase := d 4, arg := d 5,
    mbximg := bits (d 6) 0 56 }

/-- S(k) of R22. -/
def LaunchHdr.s (h : LaunchHdr) (k : Nat) : Nat := (h.ww.take k).foldl (· + ·) 0

/-- The work identifier of a strand (R22). -/
def LaunchHdr.wid (h : LaunchHdr) (core strand : Nat) : Nat :=
  (bits h.widbase (h.s 2) (h.s 6 - h.s 2) * 2 ^ h.s 2) ||| (core * 2 ^ h.s 1) ||| strand

/-- The physical address of a byte that level 0 may execute under an ASID. -/
def State.codeAddr (s : State) (asid va : Nat) : Option Nat :=
  match s.walk asid va with
  | .leaf pte _ _ large =>
    let pa := ptePA pte + (if large then va % 67108864 else va % 65536)
    if bit (ptePerm pte) 2 && targetOf pa == .dram then some pa else none
  | _ => none

/-- Whether the bundle at an address can be read under an ASID: its header word, and its body to its last word. -/
def State.canFetch (s : State) (asid va : Nat) : Bool :=
  match s.codeAddr asid va with
  | none => false
  | some pa =>
    let h := getHeader (leNat ((List.range 4).map (fun i => s.byteDev (pa + i))))
    h.kind != 0 || (s.codeAddr asid (va + 4 * h.body)).isSome

/-- The refusal code of a launch, the lowest that applies (R20); `none`: it may run. -/
def State.refusal (s : State) (L : Launch) (d : Nat → Nat) (h : LaunchHdr) : Option Nat :=
  if h.cores = 0 || h.cores > s.nCores then some 1
  else if h.strands = 0 || h.strands > 4 then some 2
  else if h.tiles > 32 then some 3
  else if h.wp > 1024 || h.xp > 1024 then some 4
  else if h.s 6 > 64 || 2 ^ (h.ww.getD 0 0) < h.strands || 2 ^ (h.ww.getD 1 0) < h.cores then some 5
  else if h.entry % 4 != 0 || h.handler % 4 != 0 || h.mbximg % 64 != 0 then some 6
  else if bits (d 0) 56 8 != 0 || bits (d 1) 56 8 != 0 || bit (d 2) 63 || bits (d 3) 42 22 != 0 || bits (d 6) 56 8 != 0 ||
      d 7 != 0 then some 7
  else if (h.mbximg != 0 && (s.plinthRead h.asid h.mbximg 128).isNone) || !s.canFetch h.asid h.entry then some 8
  else if (L.subLevel = 0 || L.subLevel = 3) && h.asid != L.subAsid then some 9
  else none

/-! ### The dependence table (file 11 R342-R345) -/

def State.liveTasks (s : State) : List Task := s.tasks.filterMap (·.2)

def overlap (a b : Nat × Nat) : Bool := a.1 < b.1 + b.2 && b.1 < a.1 + a.2
def overlapAny (xs ys : List (Nat × Nat)) : Bool := xs.any (fun a => ys.any (overlap a))

/-- The 64 KiB pages of a list of ranges. -/
def pagesOf (rs : List (Nat × Nat)) : List Nat :=
  (rs.map (fun r => (List.range (r.2 / 65536)).map (fun i => r.1 / 65536 + i))).flatten

/-- Map a page of an ASID to a frame in its page table, other bits kept (R345). -/
def State.remap (s : State) (asid page frame : Nat) : State :=
  match s.walk asid (page * 65536) with
  | .leaf pte _ a false => s.poke a (leBytes 8 (pte % 65536 + frame)) 3
  | .grow 4 pte a => s.poke a (leBytes 8 (pte % 65536 / 2 * 2 + 1 + frame)) 3
  | _ => s

/-- The frame a page table gives a page. -/
def State.frameOf (s : State) (asid page : Nat) : Option Nat :=
  match s.walk asid (page * 65536) with
  | .leaf pte _ _ false => some (ptePA pte)
  | _ => none

/-- R345: a version whose task, and every earlier holder of an older version, have completed becomes the page's frame; older
frames go back to the allocator and the page's translations are invalidated. -/
def State.settlePage (s : State) (asid page : Nat) : State :=
  let vs := s.versions.filter (fun v => v.asid == asid && v.page == page)
  let live := s.liveTasks.filter (fun t => t.asid == asid && inRanges (t.reads ++ t.writes) (page * 65536))
  let done := vs.filter (fun v => live.all (fun t => t.seq > v.seq))
  match done.foldl (fun (b : Option Version) v => match b with
      | none => some v
      | some w => if w.seq ≤ v.seq then some v else some w) none with
  | none => s
  | some v =>
    let old := (vs.filter (fun w => w.seq < v.seq)).map (·.frame)
    let base := s.frameOf asid page
    let s := s.remap asid page v.frame
    let s := { s with versions := s.versions.filter (fun w => !(w.asid == asid && w.page == page && w.seq ≤ v.seq)),
                      mapCount := NMap.set 0 s.mapCount v.frame 1 }
    let s := s.forEach old (fun s f => s.giveFrame f)
    let s := match base with | some f => s.unmapFrame f | none => s
    s.invalidateRange asid (page * 65536) 65536

/-- The frames that renaming a page of an ASID takes (R345): its own, and one for a table in a region that grows at level 3 (file 14 R391).
A page that is not mapped has nothing to rename (log 114). A part of a 64 MiB page has no entry of its own: `none` (log 93). -/
def State.renameFrames (s : State) (asid page : Nat) : Option Nat :=
  match s.walk asid (page * 65536) with
  | .leaf _ _ _ large => if large then none else some 1
  | .grow lvl pte _ => some (if lvl == 4 then 1 else if pteL pte then 0 else 2)
  | _ => some 0

/-- The frames that renaming some pages takes: pages of one growing region share its table. -/
def State.renameCost (s : State) (asid : Nat) (pages : List Nat) : Nat :=
  (pages.filter (fun p => match s.renameFrames asid p with | some n => decide (0 < n) | none => false)).length +
    (((pages.filter (fun p => s.renameFrames asid p == some 2)).map (· / 1024)).eraseDups).length

/-- A table for the page in a region that grows at level 3. -/
def State.renameTable (s : State) (asid page : Nat) : State :=
  match s.walk asid (page * 65536) with
  | .grow 3 pte a => if pteL pte then s else (s.growTable asid (page * 65536) pte a).1
  | _ => s

/-- Whether a task may bind: nothing it reads is still being written, and its renamed pages can be given frames or no longer conflict
(R344, R345). -/
def State.taskReady (s : State) (t : Task) : Bool :=
  t.waits.isEmpty &&
    (s.renameCost t.asid t.rename ≤ s.free && t.rename.all (fun p => (s.renameFrames t.asid p).isSome) ||
      s.liveTasks.all (fun u => u.seq ≥ t.seq || u.asid != t.asid || !overlapAny (u.reads ++ u.writes) t.writes))

/-- The task of a launch lets it run (R344). -/
def State.launchReady (s : State) (l : Nat) : Bool :=
  match (s.launch l).task.bind (fun t => NMap.get none s.tasks t) with
  | none => true
  | some t => s.taskReady t

/-- Launches whose task has become ready now: their readiness counts from this cycle (R346). -/
def State.noteReady (s : State) : State :=
  s.forEach ((s.launches.filter (fun p => p.2.live && !p.2.isReady)).map (·.1)) (fun s l =>
    if s.launchReady l then s.updLaunch l (fun L => { L with isReady := true, tReady := Nat.max s.cycle L.arrive }) else s)

/-- A task completes (R344): its dependents no longer wait for it, and versions settle. -/
def State.taskComplete (s : State) (slot : Nat) : State :=
  match NMap.get none s.tasks slot with
  | none => s
  | some t =>
    let ran := (s.launch t.launch).ranOn
    let s : State := s.forEach ((s.liveTasks.filter (fun u => u.waits.contains t.seq)).map (·.launch)) (fun s l =>
      s.updLaunch l (fun L => { L with ranOn := L.ranOn ++ ran.map (fun p => (256, p.2)) }))
    let rest : NMap (Option Task) := NMap.set none s.tasks slot none
    let drop : Task → Task := fun u => { u with waits := u.waits.filter (· != t.seq) }
    let rest : NMap (Option Task) := rest.map (fun (p : Nat × Option Task) => (p.1, p.2.map drop))
    let s : State := { s with tasks := rest }
    let pages : List (Nat × Nat) := (s.versions.map (fun (v : Version) => (v.asid, v.page))).eraseDups
    (s.forEach pages (fun s p => s.settlePage p.1 p.2)).noteReady

/-- Give a task its renamed pages before it binds: fresh frames with the newest version's bytes, or zero (R345). -/
def State.renamePages (s : State) (slot : Nat) : State :=
  match NMap.get none s.tasks slot with
  | none => s
  | some t =>
    let s1 := { s with tasks := NMap.set none s.tasks slot (some { t with rename := [] }) }
    if s.renameCost t.asid t.rename > s.free then s1 else
    s1.forEach t.rename (fun s page =>
      let s := s.renameTable t.asid page
      let vs := s.versions.filter (fun v => v.asid == t.asid && v.page == page && v.seq < t.seq)
      let newest := vs.foldl (fun (b : Option Version) v => match b with
        | none => some v
        | some w => if w.seq ≤ v.seq then some v else some w) none
      let src := match newest with | some v => some v.frame | none => s.frameOf t.asid page
      if s.renameFrames t.asid page != some 1 then s else
      match s.takeFrame with
      | (s, none) => s
      | (s, some f) =>
        let bytes : List Host.Cell := match src with
          | some g => if t.wfresh then [] else
              ((s.mem.filter (fun (c : Host.Cell) => g ≤ c.1 && c.1 < g + 65536)).map (fun (c : Host.Cell) => (c.1 - g, c.2)))
          | none => []
        let s := s.refill f 65536 []
        let s := { s with mem := bytes.foldl (fun m (p : Host.Cell) => Memory.write m (f + p.1) p.2) s.mem }
        { s with versions := { asid := t.asid, page := page, seq := t.seq, frame := f } :: s.versions })

/-- A launch is over: every team has exited, or it was refused (R344, R337). -/
def State.launchOver (s : State) (l : Nat) : State :=
  let L := s.launch l
  let s := s.updLaunch l (fun L => { L with live := false })
  let s := match L.task with | some t => s.taskComplete t | none => s
  s.jobEnd L.job

/-- Refuse a launch (R20): the code in its JCB, and the completions of its teams, CORES of a header that was read and names any, else one.
They are posted under the ASID the header names (file 07 R267), unless the submitter may name its own only. -/
def State.refuse (s : State) (l code : Nat) (hdr : Option LaunchHdr) : State :=
  let cores := (hdr.map (·.cores)).getD 0
  let n := if cores = 0 then 1 else cores
  let s := s.updLaunch l (fun L => { L with
    hdr := hdr.map (fun h => if L.subLevel = 0 || L.subLevel = 3 then { h with asid := L.subAsid } else h) })
  (s.launchJcb l { err := some (code, 0, 0), count := n }).launchOver l

/-! ### Binding (file 01 R15, R21, R26, R27; file 15 R409) -/

def State.usedSlots (s : State) : Nat := (s.teams.filter (fun p => p.1 < 65536 && p.2.status != .none)).length
def State.ctxSlots (s : State) : Nat := if s.ctxN < 640 then 640 else s.ctxN
def State.freeSlots (s : State) : Nat := if s.ctxBase = 0 && s.ctxN = 0 then 0 else s.ctxSlots - s.usedSlots

/-- The lowest free context slot. -/
def State.freeSlot (s : State) : Option Nat :=
  if s.freeSlots = 0 then none
  else (List.range (s.usedSlots + 1)).find? (fun t => (s.team t).status == .none)

/-- Teams that hold places on a core: bound there, or loading for it. -/
def State.residents (s : State) (c : Nat) : List Nat :=
  (s.teams.filter (fun p => p.1 < 65536 && p.2.core == c && (p.2.status == .bound || p.2.status == .loading))).map (·.1)

/-- The four limits of R15 for a team added to some residents. -/
def State.fitsWith (s : State) (res : List Nat) (h : LaunchHdr) : Bool :=
  let sum := fun (f : Team → Nat) => (res.map (fun t => f (s.team t))).foldl (· + ·) 0
  sum (·.nstr) + h.strands ≤ 4 && sum (·.tiles) + h.tiles ≤ 32 && sum (·.wp) + h.wp ≤ 1024 && sum (·.xp) + h.xp ≤ 1024

/-- A team of launch `l` is on a core: the strands of one launch on one core are one team (file 01 R14). -/
def State.hosts (s : State) (l c : Nat) : Bool := (s.residents c).any (fun t => (s.team t).launch == l)

/-- Whether a team of launch `l` can bind on a core now: the limits, no stop, no reservation of another gang, no other team of the
launch. -/
def State.canHost (s : State) (l : Nat) (h : LaunchHdr) (c : Nat) : Bool :=
  !s.hosts l c &&
  s.isCompute (courseOf c) && !(s.cluster (clusterOf c)).stop && ((s.core c).resv.isNone || (s.core c).resv == some l) &&
    s.fitsWith (s.residents c) h

/-- The order of R348 for a launch's teams. -/
def State.placeKey (s : State) (L : Launch) (c : Nat) : Nat :=
  let k := s.cluster (clusterOf c)
  (if k.hot then 2 ^ 40 else 0) + (if L.ranOn.any (fun p => p.2 == c) then 0 else 2 ^ 30) + k.temp / 256 * 256 + s.flat c

/-- The least element of a list under a key. -/
def leastBy {α : Type} (key : α → Nat) : List α → Option α
  | [] => none
  | x :: r =>
    match leastBy key r with
    | none => some x
    | some y => if key x ≤ key y then some x else some y

/-- The first core in the placement order that can host a team (R348). -/
def State.place (s : State) (l : Nat) (h : LaunchHdr) : Option Nat :=
  leastBy (s.placeKey (s.launch l)) (s.coreList.filter (s.canHost l h))

/-- The hardware strand slots of a core that no strand holds once some teams are gone (file 01 R29). -/
def State.slotNumbers (s : State) (c : Nat) (gone : List Nat) : List Nat :=
  let used := (((s.residents c).filter (fun t => !gone.contains t)).map (fun t => (s.members t).map (fun k => (s.strand k).slot))).flatten
  (List.range 4).filter (fun i => !used.contains i)

/-- The initial state of a strand (R21): held mailbox writes come on top of the image (R27). The image is read when the team binds (log 123). -/
def State.freshStrand (s : State) (l : Nat) (h : LaunchHdr) (core i slot c : Nat) : Strand :=
  let L := s.launch l
  let img := if h.mbximg = 0 then none else s.plinthRead h.asid h.mbximg 128
  let base := (List.range 16).foldl (fun m j => NMap.set 0 m j (BitVec.ofNat 64 ((img.map (dwordOf · j)).getD 0))) ([] : NMap Word)
  let base := L.mbxInit.foldl (fun m p => NMap.set 0 m p.1 p.2) base
  let mine := L.held.filter (fun w => w.1 == core && w.2.1 == i)
  let mbx := mine.foldl (fun m w => NMap.set 0 m w.2.2.1 w.2.2.2) base
  let arr := mine.foldl (fun a w => a ||| BitVec.ofNat 16 (2 ^ w.2.2.1)) (0 : BitVec 16)
  let r : Renewal := { pos := s.log.length, scope := 2, course := courseOf c, core := c }
  { pc := BitVec.ofNat 56 h.entry, a := NMap.set 0 [] 0 (BitVec.ofNat 64 h.arg), mbx := mbx, arrive := arr,
    wid := BitVec.ofNat 64 (h.wid core i), trapen := BitVec.ofNat 7 h.trapen, slot := slot, renew := [r], irenew := [r] }

/-- The items of a team's quota of a kind: 0 tiles, 1 W panes, 2 X panes. -/
def Team.quotaItems (T : Team) (kind : Nat) : List Nat :=
  match kind with
  | 0 => List.range T.tiles
  | 1 => (List.range T.wp).map (32 + ·)
  | _ => (List.range T.xp).map (1056 + ·)

/-- The kind of an item, and the places of a kind on a core. -/
def itemKind (i : Nat) : Nat := if i < 32 then 0 else if i < 1056 then 1 else 2
def kindPlaces (kind : Nat) : Nat := if kind = 0 then 32 else 1024

/-- The departing items of a kind on a core whose places no resident but team `t` waits for, in the order in which their spill completes:
those that a command names last (file 15 R417). -/
def State.departing (s : State) (t c kind : Nat) : List (Nat × Nat) :=
  let taken := ((s.residents c).filter (· != t)).map (fun u => (s.team u).hold.map (·.2))
  let all := (((s.teams.filter (fun p => p.2.spillCore == c)).map (fun p =>
    (p.2.toSpill.filter (fun i => itemKind i == kind)).map (fun i => (p.1, i)))).flatten).filter (fun q => !taken.flatten.contains q)
  let named := fun (q : Nat × Nat) => (s.team q.1).cmds.any (fun cmd => cmd.items.contains q.2)
  all.filter (fun q => !named q) ++ all.filter named

/-- Where a team that comes to a core waits for departing items: its names map onto free places first, then onto departing ones
(file 15 R418). -/
def State.holdsFor (s : State) (t c : Nat) : List (Nat × Nat × Nat) :=
  ((List.range 3).map (fun kind =>
    let dep := s.departing t c kind
    let used := ((s.residents c).filter (· != t)).map (fun u => ((s.team u).quotaItems kind).length)
    let free := kindPlaces kind - (used.foldl (· + ·) 0 + dep.length)
    (((s.team t).quotaItems kind).drop free).zip dep)).flatten

/-- A launch handle that no live launch holds, from `nextLh` on (file 05 R193): 32 bits, not 0. -/
def State.freshHandle (s : State) : Nat :=
  ((List.range (s.launches.length + 2)).map (fun i => (s.nextLh + i) % 2 ^ 32)).find? (fun h =>
    h != 0 && !s.launches.any (fun p => p.2.live && p.2.handle == h)) |>.getD 0

/-- Bind the next team of a launch to a core in context slot `t`, with a status (bound at once, or loading for a swap). -/
def State.bindTeam (s : State) (l : Nat) (h : LaunchHdr) (t c : Nat) (status : TeamStatus) : State :=
  let L := s.launch l
  let idx := L.bound
  let first := L.handle = 0
  let s := if first then
      ({ s with nextLh := (s.freshHandle + 1) % 2 ^ 32 }).updLaunch l (fun L =>
        { L with handle := s.freshHandle, hdr := some h, gang := h.gang })
    else s
  let lh := (s.launch l).handle
  let nums := s.slotNumbers c [t]
  let s := s.updTeam t (fun _ =>
    { status := status, launch := l, lh := lh, idx := idx, asid := h.asid, handler := BitVec.ofNat 56 h.handler,
      tiles := h.tiles, wp := h.wp, xp := h.xp, nstr := h.strands, core := c, born := s.cycle })
  let s := s.updTeam t (fun T => { T with hold := s.holdsFor t c })
  let s := s.forEach (List.range h.strands) (fun s i =>
    s.updStrand (4 * t + i) (fun _ => s.freshStrand l h idx i (nums.getD i i) c))
  let s := s.updLaunch l (fun L =>
    { L with bound := L.bound + 1, slots := L.slots ++ [t], ranOn := (idx, c) :: L.ranOn.filter (fun p => p.1 != idx),
             held := L.held.filter (fun w => w.1 != idx) })
  if s.freeSlots + 1 = 64 then s.post { kind := 4, code := 1, tinfo := s.freeSlots } else s

/-- Read and check the header of a launch, once (R19, R20): the header latched when the first team bound; else the refusal code and the
header, if it could be read. A header that is not aligned to 64 bytes is read where it stands (log 94). -/
def State.readHeader (s : State) (l : Nat) : Except (Nat × Option LaunchHdr) LaunchHdr :=
  let L := s.launch l
  match L.hdr with
  | some h => .ok h
  | none =>
    match s.plinthRead L.subAsid L.hdrVa 64 with
    | none => .error (8, none)
    | some bs =>
      let h := headerOf (dwordOf bs)
      match s.refusal L (dwordOf bs) h with
      | some code => .error (code, some h)
      | none => .ok h

/-! ### Selection (file 11 R346-R350) -/

def State.isSusp (s : State) (q : Nat) : Bool := NMap.get false s.qcwSusp q
def State.rank (s : State) (q : Nat) : Nat := if q < 512 then 0 else NMap.get (q - 512) s.qcwRank q

/-- Teams of a launch still to be bound, or saved and to be resumed. -/
def State.savedTeams (s : State) (l : Nat) : List Nat := (s.launch l).slots.filter (fun t => (s.team t).status == .saved)
def State.unbound (s : State) (l : Nat) (h : LaunchHdr) : Nat := if (s.launch l).killed then 0 else h.cores - (s.launch l).bound

/-- D of the frame job of a launch, for its slack (R346). -/
def State.deadlineOf (s : State) (l : Nat) : Nat :=
  let L := s.launch l
  match L.job with
  | some (n, k) => ((s.stream n).job k).elim (L.tReady + (s.stream n).deadline) (·.dk)
  | none => L.tReady + (s.stream L.queue).deadline

/-- slack plus 2^63, so that it orders as a natural number (R346). -/
def State.slackKey (s : State) (l : Nat) : Nat := 2 ^ 63 + s.deadlineOf l - s.cycle - 256 * (s.launch l).cost

/-- Effective priority of a best-effort launch (R346). -/
def State.effPrio (s : State) (l : Nat) : Nat :=
  let L := s.launch l
  Nat.min 63 (s.rank L.queue + (s.cycle - L.tReady) / 2 ^ 22)

def State.waiting (s : State) (l : Nat) : Bool :=
  let L := s.launch l
  L.live && L.arrive ≤ s.cycle && !s.isSusp L.queue && s.launchReady l &&
    (match L.hdr with
     | none => true
     | some h => decide (0 < s.unbound l h) || !(s.savedTeams l).isEmpty)

/-- The distributor stops selecting while a role change drains and flushes (file 13 R371). -/
def State.mayLaunches (s : State) : List Nat :=
  if 2 ≤ s.rcState then [] else ((s.launches.map (·.1)).filter s.waiting)

/-- The heads of the stream queues among some launches: least slack, then oldest. -/
def State.streamHeads (s : State) (ls : List Nat) : List Nat :=
  (List.range 512).filterMap (fun q =>
    leastBy (fun l => s.slackKey l * 2 ^ 64 + (s.launch l).seq) (ls.filter (fun l => (s.launch l).queue == q)))

/-- The launch that a selection takes (R346). -/
def State.select (s : State) (ls : List Nat) : Option Nat :=
  let heads := s.streamHeads (ls.filter (fun l => (s.launch l).queue < 512))
  match leastBy (fun l => (s.slackKey l * 2 ^ 64 + s.deadlineOf l) * 512 + (s.launch l).queue) heads with
  | some l => some l
  | none =>
    leastBy (fun l => (((63 - s.effPrio l) * 2 ^ 64 + (s.launch l).tReady) * 1024 + (s.launch l).queue) * 2 ^ 64 + (s.launch l).seq)
      (ls.filter (fun l => (s.launch l).queue ≥ 512))

/-- Resume a saved team on a core through a free shadow bank (file 15 R411, R421). -/
def State.startLoad (s : State) (t c : Nat) (outgoing : List Nat) : State :=
  let nums := s.slotNumbers c (t :: outgoing)
  let resumed := (s.team t).status == .saved
  let s := s.updTeam t (fun T => { T with status := .loading, core := c })
  let s := s.forEach (s.members t) (fun s k => s.updStrand k (fun st => { st with slot := nums.getD (strandIdx k) (strandIdx k) }))
  let l := (s.team t).launch
  let idx := (s.team t).idx
  let s := s.updLaunch l (fun L => { L with ranOn := (idx, c) :: L.ranOn.filter (fun p => p.1 != idx) })
  s.updCore c (fun K =>
    { K with
      bank0 := if K.bank0 == .free then .loading t else K.bank0
      bank1 := if K.bank0 == .free then K.bank1 else .loading t
      swap := some { incoming := some t, outgoing := outgoing, request := none, loaded := s.cycle + (if resumed then 1200 else 64) } })

def State.bankFree (s : State) (c : Nat) : Bool := (s.core c).bank0 == .free || (s.core c).bank1 == .free

/-- The core on which a saved team of a launch can resume, first in the placement order (R348, file 15 R421), where its load can begin now: a
core in a swap, or without a free shadow bank, is waited for (file 15 R411). -/
def State.placeSaved (s : State) (l : Nat) (h : LaunchHdr) : Option Nat :=
  (s.place l h).filter (fun c => (s.core c).swap.isNone && s.bankFree c)

/-- Bind one team of a launch that fits (R346): a saved team resumes, another binds fresh. -/
def State.bindOne (s : State) (l : Nat) (h : LaunchHdr) : Option State :=
  match s.savedTeams l, s.placeSaved l h with
  | t :: _, some c => some (s.startLoad t c [])
  | _, _ =>
    if s.unbound l h = 0 then none else
    match s.place l h, s.freeSlot with
    | some c, some t => some (s.bindTeam l h t c .bound)
    | _, _ => none

/-- Bind every team of a launch that fits (R346). -/
def State.bindAll (s : State) (l : Nat) (h : LaunchHdr) : Nat → State
  | 0 => s
  | n + 1 =>
    match s.bindOne l h with
    | some s' => s'.bindAll l h n
    | none => s

/-- Teams of a launch that have no core: not yet bound, or saved. -/
def State.unplaced (s : State) (l : Nat) (h : LaunchHdr) : Nat := s.unbound l h + (s.savedTeams l).length

/-- All teams of a gang that have no core fit at once (R350, R351). -/
def State.gangFits (s : State) (l : Nat) (h : LaunchHdr) : Bool :=
  decide (0 < s.unplaced l h) && (s.bindAll l h (s.unplaced l h)).unplaced l h == 0

/-- Whether a launch can bind a team now: every team of a gang, one team of another launch (R346, R350). A saved team keeps its context
slot; a fresh one needs a slot. -/
def State.bindable (s : State) (l : Nat) : Bool :=
  match s.readHeader l with
  | .error _ => true
  | .ok h => if h.gang then s.gangFits l h else (s.bindOne l h).isSome

/-- The ready gang that holds reservations (R350): the first that is not placed, stream gangs before best-effort gangs, by ticket. -/
def State.gangHolder (s : State) (ls : List Nat) : Option Nat :=
  leastBy (fun l => (if (s.launch l).queue < 512 then 0 else 2 ^ 64) + (s.launch l).seq)
    (ls.filter (fun l => match s.readHeader l with | .ok h => h.gang && decide (0 < s.unplaced l h) | .error _ => false))

/-- Every strand of a team has exited or been terminated: it has no strand state, and leaves when its outstanding work is done (file 15
R422). -/
def State.exiting (s : State) (t : Nat) : Bool :=
  (s.members t).all (fun k => match (s.strand k).run with | .exited => true | .terminated => true | _ => false)

/-- Whether a team belongs to a best-effort launch and may be pre-empted (R347, file 15 R408, R422). -/
def State.preemptable (s : State) (t : Nat) : Bool :=
  let T := s.team t
  T.status == .bound && (s.launch T.launch).queue ≥ 512 && !s.exiting t

/-- A best-effort team that will be gone from its core when it is pre-empted, now or once it has loaded (R347). -/
def State.evictable (s : State) (t : Nat) : Bool :=
  s.preemptable t || (s.team t).status == .loading && (s.launch (s.team t).launch).queue ≥ 512

/-- Residents of a core to pre-empt, in the order of R347, until a team fits. -/
def State.victims (s : State) (h : LaunchHdr) (res : List Nat) : Nat → List Nat
  | 0 => []
  | n + 1 =>
    if s.fitsWith res h then [] else
    match leastBy (fun t => s.effPrio (s.team t).launch * 2 ^ 64 + (2 ^ 63 - (s.team t).born)) (res.filter s.preemptable) with
    | none => []
    | some t => t :: s.victims h (res.filter (· != t)) n

/-- Whether a core can host a team once its best-effort teams are gone (R347). -/
def State.canPreempt (s : State) (l : Nat) (h : LaunchHdr) (c : Nat) : Bool :=
  !s.hosts l c &&
  s.isCompute (courseOf c) && !(s.cluster (clusterOf c)).stop &&
    s.fitsWith ((s.residents c).filter (fun t => !s.evictable t)) h

/-- A core that is being cleared for a gang: reserved, in its swap. -/
def State.clearing (s : State) (l c : Nat) : Bool := (s.core c).resv == some l && (s.core c).swap.isSome

/-- The core that a stream launch pre-empts for: the first in the placement order (R347); for a gang, of those that it neither has nor is
being given. -/
def State.roomCore (s : State) (l : Nat) (h : LaunchHdr) : Option Nat :=
  leastBy (s.placeKey (s.launch l)) (s.coreList.filter (fun c =>
    s.canPreempt l h c && !(h.gang && (s.canHost l h c || s.clearing l c))))

/-- Cores that a launch can use now or is being given. -/
def State.gained (s : State) (l : Nat) (h : LaunchHdr) : Nat := (s.coreList.filter (fun c => s.canHost l h c || s.clearing l c)).length

/-- A stream launch that lacks a core now and may pre-empt for one: a gang only where it holds the reservations (R350). A core in a swap,
or without a free shadow bank for the load, is waited for (file 15 R411). -/
def State.mayPreempt (s : State) (l : Nat) : Bool :=
  (s.launch l).queue < 512 &&
    match s.readHeader l with
    | .error _ => false
    | .ok h =>
      decide (s.gained l h < (if h.gang then s.unplaced l h else 1)) && decide (0 < s.unplaced l h) &&
        (!h.gang || s.gangHolder s.mayLaunches == some l) &&
        (!(s.savedTeams l).isEmpty || decide (0 < s.freeSlots)) &&
        match s.roomCore l h with
        | some c => (s.core c).swap.isNone && (h.gang || s.bankFree c)
        | none => false

/-- Ask a core to pre-empt teams with nothing coming in, unless a swap is under way there. -/
def State.preemptCore (s : State) (c : Nat) (ts : List Nat) : State :=
  if ts.isEmpty || (s.core c).swap.isSome then s
  else s.updCore c (fun K => { K with swap := some { incoming := none, outgoing := ts, request := some s.cycle } })

/-- Make room for a stream team (R347): load it into a shadow bank of the first core that can host it without its best-effort
teams, and ask the core to pre-empt them. A gang goes whole (R351, at its pre-emption point). For a gang the core is only cleared and
reserved: its teams are bound when all of them fit, so that no other gang is half placed (R350). -/
def State.preemptFor (s : State) (l : Nat) (h : LaunchHdr) : State :=
  match s.roomCore l h with
  | none => s
  | some c =>
    let out := s.victims h (s.residents c) 4
    let s := s.updCore c (fun K => { K with resv := if h.gang then some l else none })
    if h.gang then s.preemptCore c out else
    match s.savedTeams l, s.freeSlot with
    | t :: _, _ => s.startLoad t c out
    | [], some t =>
      if s.unbound l h = 0 then s else (s.bindTeam l h t c .loading).startLoad t c out
    | [], none => s

/-- Reservations of the holder (R350): the cores that are being cleared for it, and those it can use now. A former holder's are released. -/
def State.reserve (s : State) (ls : List Nat) : State :=
  let holder := s.gangHolder ls
  let s := { s with cores := NMap.mapAll {} s.cores (fun _ (K : Core) =>
    { K with resv := if K.swap.isSome && K.resv == holder then K.resv else none }) }
  match holder with
  | none => s
  | some l =>
    match s.readHeader l with
    | .error _ => s
    | .ok h =>
      let coming := (s.coreList.filter (s.clearing l)).length
      s.forEach ((s.coreList.filter (s.canHost l h)).take (s.unplaced l h - coming)) (fun s c =>
        s.updCore c (fun K => { K with resv := some l }))

/-- Renamed pages are in place before the first team of a task binds (R345). -/
def State.renameFor (s : State) (l : Nat) : State :=
  match (s.launch l).task with
  | some t => if (s.launch l).bound = 0 then s.renamePages t else s
  | none => s

/-- Pages that the distributor reads for a launch, grown where it touches them first (file 14 R384). -/
def State.touchHeader (s : State) (l : Nat) : State :=
  let L := s.launch l
  if L.hdr.isSome then s else
  let s := s.plinthTouch L.subAsid L.hdrVa 64
  match s.plinthRead L.subAsid L.hdrVa 64 with
  | none => s
  | some bs =>
    let h := headerOf (dwordOf bs)
    let s := if h.mbximg = 0 then s else s.plinthTouch h.asid h.mbximg 128
    s.plinthTouch h.asid h.entry 4

/-- One selection of the distributor (R346): a candidate binds every team that fits; a stream task with no core pre-empts;
the holding gang reserves. -/
def State.selection (s : State) : State :=
  let s := s.noteReady
  let ls := s.mayLaunches
  let s := s.forEach ls State.touchHeader
  let s := { s.reserve ls with lastSel := s.cycle }
  let cands := ls.filter s.bindable
  match s.select (ls.filter (fun l => cands.contains l || s.mayPreempt l)) with
  | none => s
  | some l =>
    match s.readHeader l with
    | .error (code, h) => s.refuse l code h
    | .ok h =>
      let s := s.renameFor l
      if cands.contains l then s.bindAll l h (h.cores + 1) else s.preemptFor l h

/-- A new launch at the distributor (R283, R284, R336); one without a task is ready when its request arrives. -/
def State.newLaunch (s : State) (L : Launch) : State × Nat :=
  let at_ := Nat.max s.cycle L.arrive
  ({ (s.updLaunch s.nextLid (fun _ =>
      { L with live := true, seq := s.nextLid, isReady := L.task.isNone, tReady := at_, arrive := at_ })) with nextLid := s.nextLid + 1 },
   s.nextLid)

end Sys2Proof.Machine
end

