-- ==== Sys2Proof/Machine/Boundary.lean ====
section
/-! DEFINITION. Phase boundaries of a strand (file 03 R94-R103, file 14 R399, R501), barriers (file 05 R169), and the end of strands,
teams and launches (file 01 R30; file 05 R175; file 15 R404-R406, R422). -/

namespace Sys2Proof.Machine

/-! ### Publication -/

/-- The stores of a strand that a boundary of a scope publishes: pending, or published only at a narrower scope (R96). -/
def Strand.toPublish (st : Strand) (scope : Nat) : List (Nat × OwnStore) :=
  st.stores.filterMap (fun p => match p.2 with
    | some o => if (match o.scope with | none => true | some x => x < scope) then some (p.1, o) else none
    | none => none)

/-- The byte that a store published again gives its location: that of the strand's last publication of it, or the newest where an atomic
of another agent has followed that in the coherence order (R99, R105, R106). -/
def State.byteAgain (s : State) (k pa : Nat) (b : Byte) : Byte :=
  match lastPub (fun p => p.agent == .strand k) pa s.log.length s.log 0 with
  | none => b
  | some (j, own) =>
    match lastPub (fun p => p.atomic && p.agent != .strand k) pa s.log.length s.log 0 with
    | some (i, _) => if j < i then Memory.read s.mem pa else own
    | none => own

/-- Of the stores that one boundary publishes to one byte, the last in program order (R84, R99). -/
def lastStores (l : List (Nat × Nat × Byte)) : List (Nat × Byte) :=
  (l.filter (fun c => !l.any (fun d => d.1 == c.1 && decide (c.2.1 < d.2.1)))).map (fun c => (c.1, c.2.2))

/-- Translate the bytes of a publication: their physical bytes with the place of their store in program order, and the faults met (byte,
address of its store, code), in ascending order. -/
def State.pubCells (s : State) (k : Nat) : List (Nat × OwnStore) → State × List (Nat × Nat × Byte) × List (Nat × Nat × Nat)
  | [] => (s, [], [])
  | (va, o) :: r =>
    match s.strandAccess k va .write with
    | (s, .ok pa ty leaf _) =>
      let s := if ty < 2 then (s.touchCache (s.team (teamOf k)).asid va pa leaf true).1 else s
      let (s, cs, fs) := s.pubCells k r
      if ty < 2 then (s, (pa, o.seq, if o.scope.isSome then s.byteAgain k pa o.val else o.val) :: cs, fs) else (s, cs, (va, o.start, 0x41) :: fs)
    | (s, .page) => let (s, cs, fs) := s.pubCells k r; (s, cs, (va, o.start, 0x40) :: fs)
    | (s, .prot) => let (s, cs, fs) := s.pubCells k r; (s, cs, (va, o.start, 0x41) :: fs)

/-- Mark the stores published at a scope. -/
def State.markPublished (s : State) (k scope : Nat) (drop : List Nat) : State :=
  s.updStrand k (fun st =>
    { st with stores := st.stores.filterMap (fun p => match p.2 with
        | some o =>
          if drop.contains p.1 then none
          else some (p.1, some { o with scope := some (match o.scope with | none => scope | some x => Nat.max x scope) })
        | none => none) })

/-- Publish a list of a strand's bytes at a scope, at one point of the order (R100). -/
def State.publishBytes (s : State) (k scope : Nat) (cells : List (Nat × Byte)) : State :=
  let c := s.coreOf (teamOf k)
  s.publishAt (.strand k) (courseOf c) c scope false cells

/-- The publication of a boundary (R96, R99, R100): `some (va, code)` where a store of it faults, and then nothing is published
(R501). -/
def State.publication (s : State) (k scope : Nat) : State × Option (Nat × Nat) :=
  match s.pubCells k ((s.strand k).toPublish scope) with
  | (s', cells, []) => ((s'.publishBytes k scope (lastStores cells)).markPublished k scope [], none)
  | (_, _, f :: _) => (s, some f.2)

/-- The stores of a list that a request has still to publish when it leaves the core: not discarded, and not published since (file 15
R414). -/
def Strand.unpublished (st : Strand) (scope : Nat) (l : List (Nat × OwnStore)) : List (Nat × OwnStore) :=
  l.filter (fun p => match NMap.get none st.stores p.1 with
    | some o => o.seq != p.2.seq || (match o.scope with | none => true | some x => decide (x < scope))
    | none => false)

/-- The publication of a request: of the stores that the strand had made when the request's bundle issued (R96, R102, file 15 R414). -/
def State.publishStores (s : State) (k scope : Nat) (l : List (Nat × OwnStore)) : State × Option (Nat × Nat) :=
  match s.pubCells k ((s.strand k).unpublished scope l) with
  | (s', cells, []) =>
    ((s'.publishBytes k scope (lastStores cells)).updStrand k (fun st =>
      { st with stores := st.stores.map (fun (p : Nat × Option OwnStore) => match p.2 with
          | some o =>
            if l.any (fun q => q.1 == p.1 && q.2.seq == o.seq) then
              (p.1, some { o with scope := some (match o.scope with | none => scope | some x => Nat.max x scope) })
            else p
          | none => p) }), none)
  | (_, _, f :: _) => (s, some f.2)

/-- A whole boundary: publication, then renewal. -/
def State.boundary (s : State) (k scope : Nat) : State × Option (Nat × Nat) :=
  match s.publication k scope with
  | (s, none) => (s.renewal k scope, none)
  | r => r

/-- Sectors of 256 bytes that hold some stores. -/
def sectorsOf (l : List (Nat × OwnStore)) : Nat := ((l.map (fun p => p.1 / 256)).eraseDups).length

/-- Sectors of 256 bytes that hold stores not yet published at a scope (file 08 R307). -/
def Strand.sectors (st : Strand) (scope : Nat) : Nat := sectorsOf (st.toPublish scope)

/-! ### Requests that wait for their publication (file 15 R414) -/

/-- A request of the strand has not left the core. -/
def Strand.reqOpen (st : Strand) : Bool := st.pend.any (fun p => p.req.isSome)

/-- The cycle by which every request of the strand has left the core. -/
def Strand.reqsDue (st : Strand) : Nat := (st.pend.filter (fun p => p.req.isSome)).foldl (fun t p => Nat.max t p.due) 0

/-- An atomic among them is to be performed on a device or strongly ordered page. -/
def Strand.reqDev (st : Strand) : Bool :=
  st.pend.any (fun p => match p.req with
    | some (.atom _ _ _ _ ty _ _ _) => decide (2 ≤ ty)
    | _ => false)

/-- The cycle by which the strand's device accesses to GDDR7 are performed (R96), such an atomic among them (file 08 R306). -/
def Strand.devBy (st : Strand) : Nat := if st.reqDev then Nat.max st.devDone (st.reqsDue + 324) else st.devDone

/-! ### Barriers (file 05 R169) -/

def Run.over : Run → Bool
  | .exited => true
  | .terminated => true
  | _ => false

/-- Release the strands that wait at a barrier. -/
def State.release (s : State) (ks : List Nat) (launch : Bool) : State :=
  s.forEach ks (fun s k => s.updStrand k (fun st =>
    { st with run := match st.run with
      | .blocked (.bar l) => if l == launch then .ready else st.run
      | r => r }))

/-- Complete the team barrier if every member has arrived, exited or been terminated. -/
def State.teamBarrier (s : State) (t : Nat) : State :=
  let T := s.team t
  if !T.barArr.isEmpty && (s.members t).all (fun k => T.barArr.contains k || (s.strand k).run.over) then
    (s.updTeam t (fun T => { T with barArr := [] })).release (s.members t) false
  else s

/-- Complete the launch barrier of a gang: every team bound or saved, every strand arrived or over. -/
def State.launchBarrier (s : State) (l : Nat) : State :=
  let L := s.launch l
  let ms := (L.slots.map s.members).flatten
  if !L.barArr.isEmpty && ms.all (fun k => L.barArr.contains k || (s.strand k).run.over) &&
      (L.hdr.map (·.cores)).getD 0 == L.bound then
    (s.updLaunch l (fun L => { L with barArr := [] })).release ms true
  else s

/-- An exit or termination counts as an arrival at both barriers. -/
def State.leaveBarriers (s : State) (k : Nat) : State :=
  (s.teamBarrier (teamOf k)).launchBarrier (s.team (teamOf k)).launch

/-! ### The end of a strand, a team, a launch -/

/-- EXIT (R175): the strand stops, its work range is discarded. -/
def State.exitStrand (s : State) (k : Nat) : State :=
  (s.updStrand k (fun st => { st with run := .exited, wnext := 0, wend := 0 })).leaveBarriers k

/-- TERM (R405). -/
def State.terminate (s : State) (k : Nat) : State :=
  (s.updStrand k (fun st => { st with run := .terminated, parked := none, wnext := 0, wend := 0 })).leaveBarriers k

/-- The JCB error of a publication fault at team exit (R501). -/
def jcbCodeOf (code : Nat) : Nat := if code = 0x40 then 0x10 else if code = 0x46 then 0x12 else 0x11

/-- Publish a strand's stores at its team's exit: at .sys, each store that faults dropped with a JCB error (R102, R501). -/
def State.exitPublish (s : State) (k : Nat) : State :=
  let l := (s.team (teamOf k)).launch
  let (s, cells, faults) := s.pubCells k ((s.strand k).toPublish 3)
  let s := (s.publishBytes k 3 (lastStores cells)).markPublished k 3 (faults.map (·.1))
  s.forEach (faults.map (·.2)).eraseDups (fun s f => s.jcbError l (jcbCodeOf f.2) (f.1 % 2 ^ 32) f.1)

/-- M operations of a team that have not completed. -/
def State.mBusy (s : State) (t : Nat) : Bool :=
  s.cores.any (fun p => p.2.mq.any (fun o => teamOf o.strand == t) ||
    (match p.2.mrun with | some r => teamOf r.op.strand == t | none => false))

/-- The requests of a strand have left the core, and its device, strongly ordered and PCIe-window accesses are performed: the boundary of its team's exit waits for them
(file 03 R96). -/
def State.accessesDone (s : State) (k : Nat) : Bool :=
  !(s.strand k).pcieOpen && !(s.strand k).reqOpen && (s.strand k).devDone ≤ s.cycle

/-- Whether a team may exit (R175, R422). -/
def State.canExit (s : State) (t : Nat) : Bool :=
  let T := s.team t
  t < 65536 && (T.status == .bound || T.status == .saved) && (s.members t).all (fun k => (s.strand k).run.over) &&
    T.cmds.isEmpty && !s.mBusy t && (s.members t).all (s.accessesDone)

/-- The exit of a team (R175): its stores and its engines' writes are published at .sys, its flags merged, its completion posted;
its places and its context slot are free. -/
def State.exitTeam (s : State) (t : Nat) : State :=
  let T := s.team t
  let ks := s.members t
  let s := s.forEach ks State.exitPublish
  let s : State := { s with log := s.log.map (fun p => if p.agent == .engine t && p.scope = 2 then { p with scope := 3 } else p) }
  let flags := ks.foldl (fun f k => f ||| (s.strand k).flags) (0 : BitVec 7)
  let s := s.launchJcb T.launch { count := 1, flags := flags.toNat }
  let s : State := { s with
    teams := NMap.mapAll {} (NMap.set {} s.teams t {}) (fun _ (T : Team) => { T with hold := T.hold.filter (fun h => h.2.1 != t) })
    strands := ks.foldl (fun m k => NMap.set {} m k {}) s.strands
    cores := NMap.mapAll {} s.cores (fun _ (K : Core) => { K with slot := if (K.slot.map teamOf) == some t then none else K.slot }) }
  let s := s.updLaunch T.launch (fun L => { L with exited := L.exited + 1, slots := L.slots.filter (· != t) })
  let L := s.launch T.launch
  if L.exited ≥ (L.hdr.map (·.cores)).getD 0 then s.launchOver T.launch else s

/-! ### Dispositions (file 15 R405, R406) -/

/-- Apply a disposition to a parked strand: 0 RESUME, 1 SKIPREP, 2 SKIP. The rule of R38 for a repetition index beyond the
bundle's repeat count carries the strand to the next bundle. -/
def State.resumeParked (s : State) (k disp : Nat) : State :=
  s.updStrand k (fun st =>
    match st.parked with
    | none => st
    | some f =>
      { st with run := .ready, parked := none, pc := f.tepc, grpPos := 0, grpChecked := false,
                rep := if disp = 0 then f.trep else if disp = 1 then f.trep + 1 else 16 })

/-- RESUME, SKIPREP or SKIP of a parked strand (R405); a load or atomic that failed meanwhile faults now (file 03 R93). -/
def State.resumeStrand (s : State) (k disp : Nat) : State :=
  let s := s.resumeParked k disp
  match (s.strand k).pend.find? (fun p => p.failed) with
  | some p => if (s.strand k).run == .ready then s.faultAccess k p else s
  | none => s

/-- The JCB error of KILL (R406). -/
def killError (code : Nat) : Option Nat :=
  match code with
  | 0x40 => some 0x10
  | 0x41 => some 0x11
  | 0x46 => some 0x12
  | 0x43 => some 0x14
  | 0x82 => some 0x12
  | _ => none

/-- KILL (R406): every strand of the launch terminated; its unbound teams dropped with their completions posted; once for a launch. -/
def State.kill (s : State) (l code : Nat) (addr : Nat) : State :=
  let L := s.launch l
  if L.killed then s else
  let s := s.forEach ((L.slots.map s.members).flatten) State.terminate
  let left := (L.hdr.map (·.cores)).getD 0 - L.bound
  let s := match killError code with
    | some e => s.jcbError l e (addr % 2 ^ 32) addr
    | none => s
  let s := s.updLaunch l (fun L => { L with killed := true, exited := L.exited + left })
  if left = 0 then s else
  let s := s.launchJcb l { count := left }
  let L := s.launch l
  if L.exited ≥ (L.hdr.map (·.cores)).getD 0 && L.slots.isEmpty then s.launchOver l else s

/-- Carry out a disposition of a parked strand: 0 to 2 as `resumeStrand`, 3 TERM, 4 KILL. -/
def State.disposeNow (s : State) (k : Nat) (f : ParkedFault) (disp : Nat) : State :=
  if disp = 4 then s.kill (s.team (teamOf k)).launch f.code f.tinfo.toNat
  else if disp = 3 then s.terminate k
  else s.resumeStrand k disp

/-- A disposition of the strand that a token and an index name (R405): it acts on a parked strand of the right class; for a
saved or loading team it takes effect when the team resumes. -/
def State.dispose (s : State) (keystone : Bool) (disp token str : Nat) : State :=
  -- the supervisor contexts' tokens are the low 16 bits of their keys; only the keystone's register reaches them
  let t := if keystone && (token = 0 || token = 1) && (s.team token).status == .none then 65536 + token else token
  let k := 4 * t + str
  match (s.strand k).run, (s.strand k).parked with
  | .parked, some f =>
    if (f.code ≥ 0x80) != keystone || disp > 4 then s
    else if (s.team t).status == .bound then s.disposeNow k f disp
    else s.updStrand k (fun st => { st with parked := some { f with disp := some disp } })
  | _, _ => s

end Sys2Proof.Machine
end

