-- ==== Sys2Proof/Machine/Thermal.lean ====
section
/-! DEFINITION. Power, clocks and heat (file 16): the control period, pulse patterns, grants and budgets, forced steals, stops and
refresh; and the split of a work range (file 05 R200-R202). -/

namespace Sys2Proof.Machine

/-- The canonical pattern with `p` passing slots (R428). -/
def pattern (p : Nat) : Nat :=
  (List.range 16).foldl (fun m s => if (s + 1) * p / 16 > s * p / 16 then m + 2 ^ s else m) 0

/-- Passing slots of a pattern. -/
def passing (m : Nat) : Nat := ((List.range 16).filter (bit m)).length

/-- PMIN as it acts (R426). -/
def State.pminEff (s : State) : Nat := if s.pmin = 0 then 1 else if s.pmin > 16 then 16 else s.pmin

/-- GRANT and BUDGET (R431, R432). -/
def grantOf (pa : Nat) : Nat := 300 * pa / 16
def budgetOf (grant : Nat) : Nat := grant * 421 / 32

/-- The power limit of a cooling class in mW (R431). -/
def powerLimit (cls : Nat) : Nat := if cls = 0 then 1300000 else if cls = 1 then 1600000 else 1900000

/-! ### Work ranges -/

/-- Indices left in a strand's range. -/
def Strand.left (st : Strand) : Nat := st.wend.toNat - st.wnext.toNat

/-- Split a victim's range (R200): the victim keeps the lower half with the middle index; the upper half. -/
def State.splitRange (s : State) (k : Nat) : State × Nat × Nat :=
  let st := s.strand k
  let mid := st.wnext.toNat + (st.left + 1) / 2
  (s.updStrand k (fun st => { st with wend := BitVec.ofNat 64 mid }), mid, st.wend.toNat)

/-- One forced steal (R201, R436): the upper half of a strand's range goes to its launch's pool, unless the pool is full. -/
def State.forceSteal (s : State) (k : Nat) : State :=
  let l := (s.team (teamOf k)).launch
  if (s.strand k).left < 2 || (s.launch l).pool.length ≥ 16 then s else
  let (s, lo, hi) := s.splitRange k
  s.updLaunch l (fun L => { L with pool := L.pool ++ [(lo, hi)] })

/-- Insert an element in order of a key; sorting by it. -/
def insertBy {α : Type} (key : α → Nat) (x : α) : List α → List α
  | [] => [x]
  | y :: r => if key x ≤ key y then x :: y :: r else y :: insertBy key x r
def sortBy {α : Type} (key : α → Nat) : List α → List α
  | [] => []
  | x :: r => insertBy key x (sortBy key r)

/-- The strands whose teams run on a cluster, in ascending order of launch handle, core-in-launch and strand index (R436). -/
def State.clusterStrands (s : State) (kc : Nat) : List Nat :=
  let ts := (s.teams.filter (fun p => p.1 < 65536 && p.2.status == .bound && clusterOf p.2.core == kc)).map (·.1)
  sortBy (fun k => ((s.team (teamOf k)).lh * 256 + (s.team (teamOf k)).idx) * 4 + strandIdx k) (ts.map s.members).flatten

/-! ### Pre-emption requests for a course or cluster (file 15 R408) -/

/-- Bound teams of a core that are not exiting (R422). -/
def State.runningOn (s : State) (c : Nat) : List Nat :=
  (s.residents c).filter (fun t => (s.team t).status == .bound && !s.exiting t)

/-! ### The control period (R425) -/

def computeClusters (s : State) : List Nat := (s.computeCourses.map (fun c => (List.range 8).map (fun k => 8 * c + k))).flatten

/-- Samples of the sensors (R425, R427, R369). -/
def State.sample (s : State) (temps : List Nat) : State :=
  let s := s.forEach (List.range 48) (fun s k => s.updCluster k (fun K => { K with temp := temps.getD k K.temp }))
  s.forEach (List.range 6) (fun s c => s.updCourse c (fun C =>
    { C with hotsens := ((List.range 8).map (fun k => (s.cluster (8 * c + k)).temp)).foldl Nat.max 0 }))

/-- The stop rule (R439), for the clusters of every course; those of a fenced course stay stopped (file 20 R480). A new TARGET takes effect as
every other does (R429). -/
def State.stopRule (s : State) : State :=
  s.forEach (List.range 48) (fun s k =>
    let K := s.cluster k
    if K.temp ≥ 105 * 256 && !K.stop then
      let s := s.updCluster k (fun K => { K with stop := true, target := pattern 1, tset := s.cycle })
      s.forEach (List.range 4) (fun s i => s.preemptCore (4 * k + i) (s.runningOn (4 * k + i)))
    else if K.stop && K.temp ≤ 100 * 256 && !bit s.boot.cfence (k / 8) then
      s.updCluster k (fun K => { K with stop := false, target := pattern s.pminEff, tset := s.cycle })
    else s)

/-- The power limit (R431, R432, R369). -/
def State.powerRule (s : State) (power : Nat) : State :=
  let lim := powerLimit s.cls
  s.forEach (List.range 6) (fun s c =>
    if s.isCompute c then
      let pa := (s.course c).pa
      let pa := if power > lim then Nat.max (pa - 1) s.pminEff else if power * 100 < 95 * lim then Nat.min (pa + 1) 16 else pa
      let s := s.updCourse c (fun C => { C with pa := pa, allowed := pattern pa, grant := grantOf pa })
      s.forEach (List.range 8) (fun s k => s.updCluster (8 * c + k) (fun K => { K with budget := budgetOf (grantOf pa) }))
    else if s.isStore c then s.updCourse c (fun C => { C with grant := 40 })
    else s)

/-- The hot state (R435). -/
def State.hotRule (s : State) : State :=
  s.forEach (List.range 48) (fun s k => s.updCluster k (fun K =>
    { K with hot := s.isCompute (k / 8) &&
        (if K.hot then decide (K.temp > (s.hotth - s.hyst) * 256) else decide (K.temp > s.hotth * 256)) }))

def State.allHot (s : State) : Bool := (computeClusters s).all (fun k => (s.cluster k).hot)

/-- The forced steals (R436). -/
def State.stealRule (s : State) : State :=
  if s.allHot then s else
  let cs := computeClusters s
  s.forEach (cs.filter (fun h => (s.cluster h).hot && (s.cluster h).dwellEnd.isNone)) (fun s h =>
    if cs.any (fun k => !(s.cluster k).hot && (s.cluster k).temp + s.marginC * 256 ≤ (s.cluster h).temp) then
      s.forEach (s.clusterStrands h) State.forceSteal
    else s)

/-- The pattern changes (R438), of the clusters that no stop has ended at this period end: those restart at P(PMIN) (R439). -/
def State.patternRule (s : State) (restarted : Nat → Bool) : State :=
  let all := s.allHot
  s.forEach (computeClusters s) (fun s k =>
    let pa := (s.course (k / 8)).pa
    s.updCluster k (fun K =>
      if K.stop || restarted k then K else
      let q := passing K.pattern
      { K with tset := s.cycle, target :=
          if all then pattern (Nat.max (q - 1) s.pminEff)
          else if K.hot then pattern (Nat.min q pa) else pattern (Nat.min (q + 1) pa) }))

/-- The refresh rule (R440). -/
def State.refreshRule (s : State) : State :=
  s.forEach (List.range 6) (fun s c => s.updCourse c (fun C =>
    { C with refx2 := if C.hotsens > 85 * 256 then true else if C.hotsens ≤ 83 * 256 then false else C.refx2 }))

/-- The end of a control period (R425): the rules in their order. -/
def State.controlPeriod (s : State) (temps : List Nat) (power : Nat) : State :=
  let restarted := fun (k : Nat) => (s.cluster k).stop && !((s.sample temps).stopRule.cluster k).stop
  let s := (((((s.sample temps).stopRule.powerRule power).hotRule).stealRule).patternRule restarted).refreshRule
  { s with cores := NMap.mapAll {} s.cores (fun _ (K : Core) => { K with udecl := false }) }

/-- Grants and budgets of a new role map (file 13 R369, R373). -/
def State.applyRoles (s : State) : State :=
  s.forEach (List.range 6) (fun s c =>
    let g := if s.isCompute c then grantOf (s.course c).pa else if s.isStore c then 40 else 0
    let s := s.updCourse c (fun C => { C with grant := g, allowed := pattern C.pa })
    s.forEach (List.range 8) (fun s k => s.updCluster (8 * c + k) (fun K =>
      { K with budget := if s.isCompute c then budgetOf g else 0, stop := K.stop || bit s.boot.cfence c,
               hot := K.hot && s.isCompute c })))

end Sys2Proof.Machine
end

