-- ==== Sys2Proof/Machine/Boot.lean ====
section
/-! DEFINITION. Partitions and start-up (file 13 R366, R367, R371-R373; file 20): legal role maps, re-enumeration, the plinth
reset, the steps of a start and their journal, images. -/

namespace Sys2Proof.Machine

/-! ### Role maps (file 13 R366, R367) -/

def maxCourses (cls : Nat) : Nat := if cls = 0 then 3 else if cls = 1 then 4 else 5

def courseCount (m : Nat) : Nat := ((List.range 6).filter (bit m)).length

/-- A map is legal for a class, over the courses that are not fenced (R366, R476, R480). -/
def legalMap (cls fence m : Nat) : Bool :=
  let m := m % 64
  let n := courseCount m
  cls < 3 && 1 ≤ n && n ≤ maxCourses cls &&
    (List.range 6).any (fun c => !bit m c && !bit fence c) && (List.range 6).all (fun c => !(bit m c && bit fence c)) &&
    (cls = 2 || (List.range 4).all (fun c => !(bit m c && bit m (c + 1) && bit m (c + 2))))

/-- The default map of a class over unfenced courses, filling courses 1, 2, 4, 5 and then 3 (R367). -/
def defaultMap (cls fence : Nat) : Nat :=
  let add := fun (m c : Nat) =>
    if bit fence c || courseCount m ≥ maxCourses cls || !legalMap cls fence (m + 2 ^ c) then m else m + 2 ^ c
  [1, 2, 4, 5, 3].foldl add 0

/-- The bound of CAP for N cores (file 11 R332). -/
def capBound (n : Nat) : Nat := 95 * n * 65536 / 100

/-- A new partition in force: map, epoch, CAP, STAGEL, grants (R373). -/
def State.enumerate (s : State) (m : Nat) : State :=
  let s := { s with roleMap := m, pendMap := m, epoch := s.epoch + 1 }
  let s := { s with cap := capBound s.nCores, stagel := Nat.min s.stagel (2048 * s.storeCourses.length) }
  s.applyRoles

/-! ### Images (file 20 R482) -/

def Flash.bytes (f : Flash) (off n : Nat) : List Byte := NMap.getList 0 f.image off n
def Flash.word (f : Flash) (off : Nat) : Nat := leNat (f.bytes off 4)
def bytesNat (l : List Byte) : List Nat := l.map (·.toNat)

/-- The verification of the image's header and keystone part (R482). -/
def imageOk (image : NMap Byte) (floor : Nat) : Bool :=
  let f : Flash := { image := image }
  let zero := fun (off n : Nat) => (f.bytes off n).all (· == 0)
  f.word 0 == 0x4E59524E && zero 16 48 && zero 324 188 && f.word 8 ≤ 98304 && floor ≤ f.word 4 &&
    Config.signatureOk (bytesNat (f.bytes 0 324)) &&
    Config.sha512 (bytesNat (f.bytes 512 (f.word 8))) == leNat (f.bytes 64 64)

/-- The check of the runtime part (R482, step 9). -/
def runtimeOk (image : NMap Byte) : Bool :=
  let f : Flash := { image := image }
  Config.sha512 (bytesNat (f.bytes (512 + f.word 8) (f.word 12))) == leNat (f.bytes 128 64)

/-- MEMTOP (file 20 R479). -/
def State.memtop (s : State) : Nat := 192 - 8 * ((List.range 32).filter (bit s.boot.chfence)).length

/-! ### The journal (file 20 R477, R478) -/

def Journal.word (j : Journal) : Nat :=
  j.bootn % 2 ^ 32 * 2 ^ 32 + j.detail % 65536 * 65536 + j.step % 16 * 256 + j.attempt % 4 * 64 + j.variant % 4 * 16 + j.outcome % 16

/-- The newest record of a step that counts, from the slot before `n` backward. -/
def Flash.newest (f : Flash) (step : Nat) : Nat → Nat → Option Journal
  | 0, _ => none
  | n + 1, i =>
    let j := NMap.get {} f.journal ((i + 63) % 64)
    if j.step = step && j.bootn ≥ f.counted && j.bootn != 0 then some j else f.newest step n ((i + 63) % 64)

/-- F of R478. -/
def State.failures (s : State) (step : Nat) : Nat :=
  match s.flash.newest step 64 s.flash.jnext with
  | none => 0
  | some j =>
    j.attempt + (if j.outcome = 1 || (j.outcome = 4 && j.bootn + 1 = s.boot.bootn && s.boot.rstcause = 3) then 1 else 0)

/-- Write a record at the next slot. -/
def State.journalNew (s : State) (j : Journal) : State :=
  { s with boot := { s.boot with slot := s.flash.jnext },
           flash := { s.flash with journal := NMap.set {} s.flash.journal s.flash.jnext j, jnext := (s.flash.jnext + 1) % 64 } }

/-- Rewrite the record of the running step with its outcome. -/
def State.journalEnd (s : State) (outcome detail : Nat) : State :=
  let j := { NMap.get {} s.flash.journal s.boot.slot with outcome := outcome, detail := detail }
  { s with flash := { s.flash with journal := NMap.set {} s.flash.journal s.boot.slot j } }

/-- The bound of a step, in cycles (R475). -/
def stepBound (step : Nat) : Nat := (([0, 1, 50, 20, 40, 200, 40, 10, 5, 60, 1] : List Nat)[step]?).getD 0 * 1900000

/-- The cycle on which the ROM watchdog ends the running step (R478). -/
def State.watchdogAt (s : State) : Nat := s.boot.since + 4 * stepBound s.boot.step + 1

/-- A step of a start runs under the watchdog (R478). -/
def State.starting (s : State) : Bool := s.boot.powered && !s.boot.ready && !s.boot.fatal && !s.boot.recovery

/-- Courses are fenced (R476, R480): no role, no power, their clusters stopped; DEGRADED. -/
def State.fence (s : State) (m : Nat) : State :=
  let s := { s with boot := { s.boot with cfence := s.boot.cfence ||| m, degraded := s.boot.degraded || m != 0 } }
  s.forEach ((List.range 6).filter (bit m)) (fun s c =>
    (s.updCourse c (fun C => { C with grant := 0 })).forEach (List.range 8) (fun s k =>
      s.updCluster (8 * c + k) (fun K => { K with stop := true })))

/-- Begin a step in the variant the journal selects (R478): a skip of the optional step 7 goes on to step 8; a step that is
fatal stops the start. -/
def State.beginStep (s : State) (step : Nat) : Nat → State
  | 0 => s
  | fuel + 1 =>
    let f := s.failures step
    let s := { s with boot := { s.boot with step := step, since := s.cycle } }
    let rec3 : Journal := { bootn := s.boot.bootn, step := step, attempt := Nat.min f 3, variant := 0, outcome := 4 }
    if f ≥ 3 then
      if step = 7 then
        ({ (s.journalNew { rec3 with outcome := 2 }) with boot := { (s.journalNew rec3).boot with degraded := true }, hotth := 85 }).beginStep 8 fuel
      else
        let s := s.journalNew { rec3 with outcome := 3 }
        { s with boot := { s.boot with fatal := true } }
    else
      let v := if f = 0 then 0 else 1
      let s := s.journalNew { rec3 with variant := v }
      { s with boot := { s.boot with variant := v, attempt := f, recovery := (step = 2 || step = 9) && v = 1 } }

/-- A plinth reset with a cause (R474): all device state is cleared except module flash and the fuses, and a start begins; a
journal clear that was latched takes effect (R478). -/
def State.plinthReset (s : State) (cause : Nat) : State :=
  let n := s.flash.bootn + 1
  let f := { s.flash with bootn := n }
  let f := if f.jclr then { f with jclr := false, counted := n, cfence := 0, chfence := 0, chslow := 0 } else f
  let b : Boot := { bootn := n, rstcause := cause, cpref := f.cpref, cfence := 0, degraded := false }
  ({ State.reset with flash := f, boot := b, cls := f.cls, agenda := s.agenda, freeN := s.freeN, iss := {} }).beginStep 1 4

/-- The keystone part of the image goes to the firmware SRAM at step 2, from its first byte on (R483; log 119); the runtime part to GDDR7 at
step 9, to a frame that the manual does not name. -/
def State.loadKeystone (s : State) : State :=
  { s with mem := Memory.writeList s.mem sramBase ((s.flash.bytes 512 s.flash.klen).take sramSize) }
def State.loadRuntime (s : State) : State :=
  { s with mem := Memory.writeList s.mem (65536 * (Config.runtimeFrame % (16384 * s.memtop))) (s.flash.bytes (512 + s.flash.klen) s.flash.rlen) }

/-- A supervisor context begins at address 0 of ASID 0, with a handler that the manual gives nowhere (log 41). -/
def State.startSupervisor (s : State) (team level : Nat) : State :=
  { s with teams := NMap.set {} s.teams team { status := .bound, nstr := 1, handler := Config.supervisorHandler level },
           strands := NMap.set {} s.strands (4 * team) { level := level } }

/-- End a step (R475, R476, R478). `mask`: courses fenced in steps 3 and 4; slow channels (bits 31:0) and fenced channels (bits 63:32) in steps
5 and 6; `detail`: the DETAIL of steps 5 and 6, and what the keystone writes to CTXPOOL in step 8 (file 15 R409). -/
def State.endStep (s : State) (pass : Bool) (mask detail : Nat) : State :=
  let step := s.boot.step
  let alt := s.boot.variant = 1
  let cf := s.boot.cfence ||| (if step = 3 then s.flash.cfence else 0) ||| (if (step = 3 || step = 4) && alt then mask % 64 else 0)
  let chf := s.boot.chfence ||| (if step = 5 then s.flash.chfence else 0) |||
    (if (step = 5 || step = 6) && alt then bits mask 32 32 else 0)
  let slow := s.boot.chslow ||| (if step = 5 then s.flash.chslow else 0) ||| (if step = 5 && alt then bits mask 0 32 else 0)
  -- a channel that is fenced runs at no rate
  let chs := slow - (slow &&& chf)
  let fenced := ((List.range 32).filter (bit chf)).length
  let limits := fenced ≤ 2 && courseCount (63 - cf) ≥ 2 && (List.range 64).any (legalMap s.cls cf)
  let m := if step = 8 then (if alt then defaultMap s.cls cf else s.flash.cpref) else 0
  let checks := match step with
    | 2 => alt || (imageOk s.flash.image s.flash.floor && !s.flash.unfinished)
    | 8 => legalMap s.cls cf m
    | 9 => alt || runtimeOk s.flash.image
    | _ => true
  -- the recovery loader's step ends only by a recovery load (R484)
  if !s.starting then s else
  let ok := pass && limits && checks
  let det := if step = 3 || step = 4 then mask % 64 else if step = 5 || step = 6 then detail else if step = 8 then m else 0
  let s := s.journalEnd (if ok then 0 else 1) det
  if !ok then s.plinthReset 4 else
  let s := s.fence cf
  let s := { s with boot := { s.boot with chfence := chf, chslow := chs, degraded := s.boot.degraded || chf != 0 || chs != 0 },
                    -- the fences that the alternates of the steps keep (R478)
                    flash := { s.flash with cfence := if step = 3 || step = 4 then cf else s.flash.cfence,
                                            chfence := if step = 5 || step = 6 then chf else s.flash.chfence,
                                            chslow := if step = 5 || step = 6 then chs else s.flash.chslow } }
  let s := match step with
    | 2 => ({ s with boot := { s.boot with kver := s.flash.version,
                                           meas1 := some (Config.sha512 (bytesNat (s.flash.bytes 512 s.flash.klen))) } }
             ).loadKeystone.startSupervisor keystoneTeam 2
    | 6 => { s with mem := s.mem.filter (fun c => sramBase ≤ c.1), log := [] }
    | 8 => ({ s with epoch := 0, ctxBase := bits detail 16 36 * 65536, ctxN := bits detail 0 16 }).enumerate m
    | 9 => ({ s with boot := { s.boot with rver := s.flash.version,
                                           meas2 := some (Config.sha512 (bytesNat (s.flash.bytes (512 + s.flash.klen) s.flash.rlen))) } }
             ).loadRuntime.startSupervisor runtimeTeam 1
    | 10 => { s with boot := { s.boot with ready := true } }
    | _ => s
  if step ≥ 10 then s else s.beginStep (step + 1) 4

/-- The recovery load (R484): the image written at GDDR7 address 0 is verified whole, written to flash, the counts of steps 2 and
9 cleared, and the plinth reset with cause 4; otherwise the loader stays in RECOVERY. -/
def State.recoveryLoad (s : State) (len : Nat) : State :=
  if !s.boot.recovery then s else
  let img : NMap Byte := s.mem.filter (fun (c : Host.Cell) => decide (c.1 < len))
  if !(imageOk img s.flash.floor && runtimeOk img) then s else
  let f : Flash := { image := img }
  let clear : Journal → Journal := fun j => if j.step = 2 || j.step = 9 then { j with attempt := 0 } else j
  let jr : NMap Journal := s.flash.journal.map (fun (p : Nat × Journal) => (p.1, clear p.2))
  ({ s with flash := { s.flash with unfinished := false, image := img, version := f.word 4, klen := f.word 8, rlen := f.word 12,
                                    journal := jr } }).plinthReset 4

/-! ### Role changes (file 13 R371, R372) -/

/-- The tests of R372 for a map of N' cores. -/
def State.testMap (s : State) (m : Nat) : Bool :=
  let n := 32 * courseCount m
  let ns := ((List.range 6).filter (fun c => !bit m c && !bit s.boot.cfence c)).length
  sumBy s.liveStreams Stream.u ≤ capBound n && sumBy s.liveStreams Stream.stg ≤ 2048 * ns &&
    s.launches.all (fun p => !(p.2.live && (match s.readHeader p.1 with
      | .ok h => h.gang && decide (n < h.cores)
      | .error (_, some h) => h.gang && decide (n < h.cores)
      | .error (_, none) => false)))

/-- The drain step (R371): every team of every compute course that is not exiting is pre-empted. -/
def State.startDrain (s : State) : State :=
  ({ s with rcState := 2 }).forEach s.coreList (fun s c => s.preemptCore c (s.runningOn c))

end Sys2Proof.Machine
end

