-- ==== Sys2Proof/Machine/Regs.lean ====
section
/-! DEFINITION. The control block (file 18 R451, R452) and the registers in it: what a read returns and does, what a write does. -/

namespace Sys2Proof.Machine

/-! ### Register values -/

def boolNat (b : Bool) : Nat := if b then 1 else 0

/-- MSTATUS (file 20 R485). -/
def State.mstatus (s : State) : Nat :=
  s.boot.bootn % 2 ^ 32 * 2 ^ 32 + s.flash.jnext % 64 * 2 ^ 26 + s.boot.rstcause % 8 * 2 ^ 23 + s.boot.step % 16 * 65536 +
    boolNat s.boot.recovery * 8 + boolNat s.boot.degraded * 4 + boolNat s.boot.fatal * 2 + boolNat s.boot.ready

def State.mcourse (s : State) : Nat := s.memtop * 2 ^ 56 + s.boot.cfence % 64 * 256 + s.boot.cpref % 64

/-- MODALLOW (file 13 R368). -/
def State.modallow (s : State) : Nat :=
  s.epoch % 65536 * 2 ^ 48 + s.rcState % 8 * 2 ^ 32 + s.pendMap % 64 * 2 ^ 24 + s.roleMap % 64 * 65536 +
    maxCourses s.cls * 256 + s.cls % 4

/-- CTA of a course (file 13 R369). -/
def State.cta (s : State) (c : Nat) : Nat :=
  let C := s.course c
  C.hotsens % 65536 * 2 ^ 48 + ((List.range 8).filter (fun k => (s.cluster (8 * c + k)).hot)).foldl (fun m k => m + 2 ^ (40 + k)) 0 +
    C.allowed % 65536 * 65536 + boolNat C.refx2 * 1024 + boolNat (s.isCompute c) * 512 + C.grant % 512

/-- CLST of a cluster (file 16 R427). -/
def State.clst (s : State) (k : Nat) : Nat :=
  let K := s.cluster k
  K.temp % 65536 * 2 ^ 48 + boolNat K.dwellEnd.isSome * 2 ^ 47 + boolNat K.stop * 2 ^ 46 + K.budget % 16384 * 2 ^ 32 +
    K.target % 65536 * 65536 + K.pattern % 65536

def State.thermcfg (s : State) : Nat :=
  s.hotth % 256 * 2 ^ 48 + s.hyst % 256 * 2 ^ 40 + s.marginC % 256 * 2 ^ 32 + s.dwell % 65536 * 65536 + s.pmin % 256 * 256

def State.admlim (s : State) : Nat := s.stagel % 65536 * 2 ^ 48 + s.resvl % 2 ^ 24 * 2 ^ 24 + s.cap % 2 ^ 24

def State.ctxpool (s : State) : Nat :=
  Nat.min s.freeSlots 4095 * 2 ^ 52 + s.ctxBase % 2 ^ 52 / 65536 * 65536 + s.ctxN % 65536

def Port.rpcfg (p : Port) : Nat := p.next % 2 ^ 38 * 2 ^ 26 + p.mm1 % 8 * 65536 + p.pos % 8 * 256 + boolNat p.en
def Port.rpstat (p : Port) : Nat :=
  p.prevrid % 65536 * 2 ^ 48 + p.revto % 4096 * 2 ^ 36 + p.alayer % 65536 * 65536 + p.aframe % 2048 * 32 +
    boolNat p.idereq * 8 + boolNat p.ideok * 4 + boolNat p.aborted

def State.bar2cfg (s : State) : Nat := s.b2asid % 65536 * 2 ^ 48 + s.b2vb % 2 ^ 26 * 2 ^ 22 + boolNat s.b2en
def State.bar2err (s : State) : Nat := s.b2errN % 256 * 2 ^ 56 + s.b2errVa % 2 ^ 56

/-- ECCSTAT of a kind of storage (file 21 R490): errors that were corrected show nowhere else, and their count is free (log 121). -/
def State.eccStat (s : State) (k : Nat) : Nat :=
  let e := NMap.get (0, 0) s.ecc k
  let c := if s.cycle = 0 then 0 else Config.corrected s.boot.bootn k s.cycle
  Nat.min (e.1 + c) (2 ^ 48 - 1) * 65536 + e.2 % 65536

/-- The 8-byte register at an offset, before READY hidden from the host save the management registers and the MSI-X structures
(file 20 R474); reserved offsets read as zero (R451). -/
def State.reg8 (s : State) (off : Nat) : Nat :=
  if off = 0 then s.mstatus
  else if off = 0x10 then s.boot.chslow % 2 ^ 32 * 2 ^ 32 + s.boot.chfence % 2 ^ 32
  else if off = 0x18 then s.mcourse
  else if off = 0x20 then s.boot.rver % 2 ^ 32 * 2 ^ 32 + s.boot.kver % 2 ^ 32
  else if 0x100 ≤ off && off < 0x130 then s.eccStat ((off - 0x100) / 8)
  else if off = 0x180 then s.rthb.toNat
  else if 0x200 ≤ off && off < 0x400 then (NMap.get {} s.flash.journal ((off - 0x200) / 8)).word
  else if off = 0x10000 then s.modallow
  else if 0x10040 ≤ off && off < 0x10070 then s.cta ((off - 0x10040) / 8)
  else if off = 0x10100 then s.thermcfg
  else if 0x11000 ≤ off && off < 0x11600 then
    let c := (off - 0x11000) / 256
    let r := (off - 0x11000) % 256
    if r < 64 then s.clst (8 * c + r / 8) else if r = 128 then (s.course c).droops else 0
  else if off = 0x20000 then s.admlim
  else if 0x21000 ≤ off && off < 0x22000 then boolNat (s.stream ((off - 0x21000) / 8)).irq * 65536
  else if off = 0x30000 then s.asidBase
  else if off = 0x30008 then s.free % 2 ^ 32 * 2 ^ 32 + s.lowmark % 2 ^ 32
  else if off = 0x30018 then s.pfxBase
  else if off = 0x31000 then s.fltBase + s.fltLog2n
  else if off = 0x31008 then s.fltHead * 2 ^ 32 + s.fltTail
  else if off = 0x31010 then s.fltLost
  else if off = 0x32000 then s.ctxpool
  else if 0x40000 ≤ off && off < 0x43000 then
    let p := s.port ((off - 0x40000) / 0x1000)
    match (off - 0x40000) % 0x1000 with
    | 0 => p.rpcfg
    | 8 => p.rpstat
    | 16 => p.rmbx.toNat
    | _ => 0
  else if off = 0x50010 then s.bar2cfg
  else if off = 0x50018 then s.bar2err
  else if off = 0x50020 then s.mbxDrop
  else 0

/-- The MSI-X table and pending bits, in 4-byte units (R451, R458). -/
def State.msixReg (s : State) (off : Nat) : Nat :=
  if off < 0x108000 then
    let v := (off - 0x100000) / 16
    match (off - 0x100000) % 16 with
    | 0 => (NMap.get 0 s.msixAddr v).toNat % 2 ^ 32
    | 4 => (NMap.get 0 s.msixAddr v).toNat / 2 ^ 32
    | 8 => NMap.get 0 s.msixData v
    | 12 => boolNat (!NMap.get false s.msixOn v)
    | _ => 0
  else
    ((List.range 32).filter (fun i => NMap.get false s.msixPend (8 * (off - 0x108000) + i))).foldl (fun m i => m + 2 ^ i) 0

/-- Whether an offset is one the host reaches before READY (file 20 R474). -/
def earlyReg (off : Nat) : Bool := off < 0x10000 || (0x100000 ≤ off && off < 0x108100)

/-- A read of the control block: naturally aligned and of the register's size, else zero (R452). -/
def State.regRead (s : State) (host : Bool) (off size : Nat) : Nat :=
  if host && !s.boot.ready && !earlyReg off then 0
  else if 0x22000 ≤ off && off < 0x22900 then
    if size = 4 && off % 4 = 0 then
      let q := (off - 0x22000) / 4
      boolNat (s.isSusp q) * 256 + s.rank q else 0
  else if 0x100000 ≤ off && off < 0x108100 then
    if size = 4 && off % 4 = 0 then s.msixReg off
    else if size = 8 && off % 8 = 0 then s.msixReg off + 2 ^ 32 * s.msixReg (off + 4) else 0
  else if size = 8 && off % 8 = 0 then s.reg8 off
  else 0

/-- The effect of a read: FLTQLOST and BAR2ERR clear (file 15 R400, file 18 R455). -/
def State.regReadEffect (s : State) (host : Bool) (off size : Nat) : State :=
  if (host && !s.boot.ready) || size != 8 then s
  else if off = 0x31010 then { s with fltLost := 0 }
  else if off = 0x50018 then { s with b2errN := 0, b2errVa := 0 }
  else s

/-! ### Writes -/

/-- FPUSH (file 14 R390, file 20 R479): a frame at or above MEMTOP is ignored. -/
def State.pushFrame (s : State) (v : Nat) : State :=
  let f := bits v 16 36 * 65536
  if f ≥ s.memtop * 2 ^ 30 then s else s.giveFrame f

/-- FLTQPTR.HEAD (file 15 R403): held records are posted as room appears. -/
def State.writeHead (s : State) (h : Nat) : State :=
  let s := { s with fltHead := h % 2 ^ 32 }
  s.postHeld (s.fltHold.length + 1)

/-- ADMLIM (file 11 R332). -/
def State.writeAdmlim (s : State) (v : Nat) : State :=
  { s with stagel := Nat.min (bits v 48 16) (2048 * s.storeCourses.length), resvl := bits v 24 24,
           cap := Nat.min (bits v 0 24) (capBound s.nCores) }

/-- STCTL.POISON (file 18 R453, file 11 R341): only the slot at PUB for which a ring-stall event stands. -/
def State.poison (s : State) (n : Nat) (bitsRing : Bool) (pidx : Nat) : State :=
  let st := s.stream n
  let r := if bitsRing then st.bits else st.frame
  if st.live && pidx % 65536 == r.pub % 65536 && r.stalled == some r.pub then
    let r' := { r.doPoison with stalled := none }
    (s.updStream n (fun st => if bitsRing then { st with bits := r' } else { st with frame := r' })).writeRing st.asid r'
  else s

/-- Unmask or mask a vector; unmasking one whose pending bit is set sends its message (file 18 R458). -/
def State.setMask (s : State) (v : Nat) (masked : Bool) : State :=
  let s := { s with msixOn := NMap.set false s.msixOn v (!masked) }
  if !masked && NMap.get false s.msixPend v then
    { s with msixPend := NMap.set false s.msixPend v false, msixOut := s.msixOut ++ [v] }
  else s

def State.msixWrite (s : State) (off v : Nat) : State :=
  if off ≥ 0x108000 then s else
  let n := (off - 0x100000) / 16
  let a := (NMap.get 0 s.msixAddr n).toNat
  match (off - 0x100000) % 16 with
  | 0 => { s with msixAddr := NMap.set 0 s.msixAddr n (BitVec.ofNat 64 (a / 2 ^ 32 * 2 ^ 32 + v % 2 ^ 32)) }
  | 4 => { s with msixAddr := NMap.set 0 s.msixAddr n (BitVec.ofNat 64 (a % 2 ^ 32 + 2 ^ 32 * (v % 2 ^ 32))) }
  | 8 => { s with msixData := NMap.set 0 s.msixData n (v % 2 ^ 32) }
  | 12 => s.setMask n (bit v 0)
  | _ => s

/-- Queue control words (file 11 R349). -/
def State.setSusp (s : State) (q : Nat) (on : Bool) : State := { s with qcwSusp := NMap.set false s.qcwSusp q on }
def State.setRank (s : State) (q r : Nat) : State :=
  if 512 ≤ q && q < 576 then { s with qcwRank := NMap.set (q - 512) s.qcwRank q (r % 64) } else s

/-- HINTR (file 18 R458). -/
def State.hintr (s : State) (v : Nat) : State :=
  let n := bits v 0 11
  if 516 ≤ n then s.msix n else s

/-- RPSTAT (file 18 R459): PREVRID and REVTO at level 1, IDEREQ at level 2, ARM clears ABORTED. -/
def State.writeRpstat (s : State) (p v level : Nat) : State :=
  s.updPort p (fun P => { P with prevrid := bits v 48 16, revto := bits v 36 12,
                                 idereq := if level ≥ 2 then bit v 3 else P.idereq,
                                 aborted := if bit v 1 then false else P.aborted })

/-- A write of an 8-byte register at a level (R452). -/
def State.writeReg8 (s : State) (off v level : Nat) : State :=
  if off = 8 then
    if bit v 0 then (if bit v 1 then { s with flash := { s.flash with jclr := true } } else s).plinthReset 2
    else
      let s := if bit v 1 then { s with flash := { s.flash with jclr := true } } else s
      if bit v 2 then s.recoveryLoad (bits v 32 32) else s
  else if off = 0x10000 then (if level ≥ 2 then { s with cls := bits v 0 2 } else s)
  else if off = 0x180 then { s with rthb := BitVec.ofNat 64 v }
  else if off = 0x10100 then
    if level ≥ 2 then { s with hotth := bits v 48 8, hyst := bits v 40 8, marginC := bits v 32 8, dwell := bits v 16 16, pmin := bits v 8 8 }
    else s
  else if off = 0x20000 then s.writeAdmlim v
  else if 0x21000 ≤ off && off < 0x22000 then
    let n := (off - 0x21000) / 8
    let s := if bit v 63 then s.poison n (bit v 62) (bits v 0 16) else s
    s.updStream n (fun st => { st with irq := bit v 16 })
  else if off = 0x30000 then { s with asidBase := bits v 19 33 * 524288 }
  else if off = 0x30008 then { s with lowmark := bits v 0 32 }
  else if off = 0x30010 then s.pushFrame v
  else if off = 0x30018 then { s with pfxBase := bits v 26 26 * 67108864 }
  else if off = 0x31000 then { s with fltBase := bits v 16 36 * 65536, fltLog2n := bits v 0 4 }
  else if off = 0x31008 then s.writeHead (bits v 32 32)
  else if off = 0x31018 then s.dispose false (bits v 20 4) (bits v 0 16) (bits v 16 2)
  else if off = 0x32000 then
    if level ≥ 2 then
      let s := { s with ctxBase := bits v 16 36 * 65536, ctxN := bits v 0 16 }
      if s.freeSlots < 64 then s.post { kind := 4, code := 1, tinfo := s.freeSlots } else s
    else s
  else if 0x40000 ≤ off && off < 0x43000 then
    let p := (off - 0x40000) / 0x1000
    match (off - 0x40000) % 0x1000 with
    | 0 => s.updPort p (fun P => { P with next := bits v 26 38, mm1 := bits v 16 3, pos := bits v 8 3, en := bit v 0 })
    | 8 => s.writeRpstat p v level
    | _ => s
  else if off = 0x50010 then { s with b2asid := bits v 48 16, b2vb := bits v 22 26, b2en := bit v 0 }
  else if off = 0x50100 then s.hintr v
  else s

/-- A write to the control block (R452): by the host before READY, only to the management registers and the MSI-X structures. -/
def State.regWrite (s : State) (host : Bool) (off size v level : Nat) : State :=
  if level = 0 || (host && !s.boot.ready && !earlyReg off) then s
  else if 0x22000 ≤ off && off < 0x22900 then
    if size = 4 && off % 4 = 0 then
      let q := (off - 0x22000) / 4
      (s.setSusp q (bit v 8)).setRank q (bits v 0 6)
    else s
  else if 0x100000 ≤ off && off < 0x108100 then
    if size = 4 && off % 4 = 0 then s.msixWrite off v
    else if size = 8 && off % 8 = 0 then (s.msixWrite off (v % 2 ^ 32)).msixWrite (off + 4) (v / 2 ^ 32)
    else s
  else if off = 0x50000 then
    if size = 16 then s.mailbox (v % 2 ^ 64) (BitVec.ofNat 64 (v / 2 ^ 64)) else s
  else if size = 8 && off % 8 = 0 then s.writeReg8 off v level
  else s

end Sys2Proof.Machine
end

