-- ==== Sys2Proof/Machine/Host.lean ====
section
/-! DEFINITION. The host's acts on the device (file 18; file 15 R403-R407; file 11 R332, R349, R453): register writes with behaviour
of their own, the BAR2 window, mailboxes, interrupts, dispositions. Each is one event of the opcode table. -/

namespace Sys2Proof.Machine

/-- What a meaning answers. -/
abbrev Result := Host.Outcome State Fault Refusal

/-! ### Who reaches the device (file 18 R467, file 20 R474) -/

/-- IDE streams: key 4 port + stream; port 0 is the host port, ports 1 to 3 the ring ports. -/
def ideKey (port stream : Nat) : Nat := 4 * port + stream

/-- An IDE stream is in the Insecure state: the requests it carries are dropped (R467). -/
def State.insecure (s : State) (port stream : Nat) : Bool := (NMap.get {} s.ide (ideKey port stream)).state == 2

/-- The requests of the host are dropped: a stream of its port is Insecure (log 122). -/
def State.hostCut (s : State) : Bool := s.insecure 0 0 || s.insecure 0 1

/-- A write of the host: none of an Insecure stream; before READY only of the management registers and the MSI-X structures (`early`). A
supervisor core's writes are its stores (file 18 R450). -/
def State.byHost (s : State) (early : Bool) (effect : State → State) : State :=
  if s.hostCut || !(s.boot.ready || early) then s else effect s

/-! ### The BAR2 window (file 18 R454-R457, file 13 R375, file 20 R484) -/

/-- The window is open: not before READY (file 20 R474). -/
def State.bar2Open (s : State) : Bool := s.boot.recovery || s.boot.ready && s.b2en

/-- The virtual address of a window offset (R455); in recovery the physical one (file 20 R484). -/
def State.bar2Va (s : State) (off : Nat) : Nat :=
  if s.boot.recovery then off else s.b2vb * 2 ^ 30 / 2 ^ s.b2size * 2 ^ s.b2size + off % 2 ^ s.b2size

/-- Count a window access that faulted (R455, R456). -/
def State.bar2Fault (s : State) (va : Nat) : State :=
  { s with b2errN := if s.b2errN < 255 then s.b2errN + 1 else 255, b2errVa := if s.b2errN = 0 then va else s.b2errVa }

/-- The last publication of a byte that an agent sure of scope `.sys` observes (R104). -/
def State.sysByte (s : State) (pa : Nat) : Byte :=
  match lastPub (fun p => p.scope ≥ 3) pa s.log.length s.log 0 with
  | some (_, b) => b
  | none => s.firstByte pa

/-- A read at the home: what is published at .sys is observed; a value published at a narrower scope may be (R104). -/
def State.homeRead (s : State) (pas : List Nat) : State × List Byte :=
  let now := pas.map (Memory.read s.mem)
  let sys := pas.map s.sysByte
  if now = sys then (s, now)
  else ({ s with freeN := s.freeN + 1 }, if Config.raceChoice s.freeN % 2 = 0 then now else sys)

/-- Physical bytes of a window access, checked against PERM (R456); a frame in a PCIe window faults. -/
def State.bar2Bytes (s : State) (asid va : Nat) (kind : AccessKind) : Nat → State × Option (List (Nat × Nat))
  | 0 => (s, some [])
  | n + 1 =>
    match s.access 0 asid 0 (va + n) kind with
    | (s, .ok pa ty _ _) =>
      match targetOf pa with
      | .dram =>
        match s.bar2Bytes asid va kind n with
        | (s, some l) => (s, some (l ++ [(pa, ty)]))
        | r => r
      | _ => (s, none)
    | (s, _) => (s, none)

/-- Where a window access goes, byte by byte, with the types of the pages: in recovery to the physical addresses themselves. -/
def State.bar2Cells (s : State) (asid va : Nat) (kind : AccessKind) (n : Nat) : State × Option (List (Nat × Nat)) :=
  if s.boot.recovery then (s, some ((List.range n).map (fun i => (va + i, 2)))) else s.bar2Bytes asid va kind n

def State.answer (s : State) (kind : Nat) (data : List Nat) : State := { s with hostOut := s.hostOut ++ [(kind, data)] }

/-- A window access reaches the sectors of normal memory at their home (file 13 R377, R378). -/
def State.bar2Touch (s : State) (asid va : Nat) (cells : List (Nat × Nat)) (write : Bool) : State :=
  s.forEach (((List.range cells.length).zip cells).filter (fun p => p.2.2 < 2 && (p.1 = 0 || (va + p.1) % 256 = 0))) (fun s p =>
    s.touchAt asid (va + p.1) p.2.1 write)

/-- The 8-byte units of an access, in ascending address order (R457). -/
def unitsOf {α : Type} (va : Nat) (l : List α) : List (List α) :=
  let n := (8 - va % 8) % 8
  ((l.take n) :: (List.range ((l.length - n + 7) / 8)).map (fun i => (l.drop (n + 8 * i)).take 8)).filter (fun u => !u.isEmpty)

/-- Whether a request held is one of the window. -/
def HeldReq.isBar2 : HeldReq → Bool
  | .bar2Write _ _ _ => true
  | .bar2Read _ _ _ => true
  | .bar2Atomic _ _ _ _ _ _ => true
  | _ => false

/-- Whether a window access is held: one that reaches a slice of the block cache (file 13 R375), or that comes after one held (R457). -/
def State.bar2Held (s : State) (va n : Nat) (kind : AccessKind) : Bool :=
  s.holding && s.bar2Open && !s.boot.recovery && (match (s.bar2Cells s.b2asid va kind n).2 with
    | some cells => cells.any (fun c => c.2 < 2) || s.held.any HeldReq.isBar2
    | none => s.held.any HeldReq.isBar2)

/-- A window read, performed now, unit by unit (R455-R457). -/
def State.bar2ReadNow (s : State) (asid va n : Nat) : State :=
  match s.bar2Cells asid va .read n with
  | (s, none) => (s.bar2Fault va).answer 2 []
  | (s, some cells) =>
    let (s, bs) := (unitsOf va cells).foldl (fun (q : State × List Byte) u =>
      let (s, bs) := q.1.homeRead (u.map (·.1))
      (s, q.2 ++ bs)) (s.bar2Touch asid va cells false, [])
    s.answer 0 (bs.map (·.toNat))

/-- A window write, performed now and published at .sys, unit by unit; a write that faults is dropped (R456, R457). -/
def State.bar2WriteNow (s : State) (asid va : Nat) (bytes : List Nat) : State :=
  match s.bar2Cells asid va .write bytes.length with
  | (s, none) => s.bar2Fault va
  | (s, some cells) =>
    (s.bar2Touch asid va cells true).forEach (unitsOf va ((cells.map (·.1)).zip (bytes.map (BitVec.ofNat 8)))) (fun s u =>
      s.publishAt .host 7 254 3 false u)

/-- An atomic operation on n-byte numbers (file 05 R190, R191): 0 add, 1 and, 2 or, 3 xor, 4 min, 5 max, 6 minu, 7 maxu, 8 swap. -/
def atomicOp (op n old b : Nat) : Nat :=
  let m := 2 ^ (8 * n)
  let old := old % m
  let b := b % m
  let si := fun (x : Nat) => sextInt (8 * n) x
  match op with
  | 0 => (old + b) % m
  | 1 => old &&& b
  | 2 => old ||| b
  | 3 => old ^^^ b
  | 4 => if si old < si b then old else b
  | 5 => if si old > si b then old else b
  | 6 => if old < b then old else b
  | 7 => if old > b then old else b
  | _ => b

/-- A PCIe AtomicOp through the window, performed now: 0 FetchAdd, 1 Swap, 2 CAS of 4 or 8 bytes; a relaxed atomic at .sys (R457); a CAS that
fails writes nothing. -/
def State.bar2AtomicNow (s : State) (asid va n op value compare : Nat) : State :=
  match s.bar2Cells asid va .write n with
  | (s, none) => (s.bar2Fault va).answer 2 []
  | (s, some cells) =>
    let old := leNat ((cells.map (·.1)).map (Memory.read s.mem))
    let s := s.bar2Touch asid va cells true
    (if op = 2 && old != compare % 2 ^ (8 * n) then s
     else s.publishAt .host 7 254 3 true ((cells.map (·.1)).zip (leBytes n (if op = 0 then atomicOp 0 n old value else value)))).answer 0 [old]

/-- A read through a closed window completes with Unsupported Request (R455). -/
def execBar2Read (off n : Nat) (s : State) : Result :=
  let va := s.bar2Va off
  .next (if s.hostCut then s else if !s.bar2Open then s.answer 1 []
    else if s.bar2Held va n .read then { s with held := s.held ++ [.bar2Read s.b2asid va n] } else s.bar2ReadNow s.b2asid va n)

/-- A write through a closed window is dropped (R455). -/
def execBar2Write (off : Nat) (bytes : List Nat) (s : State) : Result :=
  let va := s.bar2Va off
  .next (if s.hostCut || !s.bar2Open then s
    else if s.bar2Held va bytes.length .write then { s with held := s.held ++ [.bar2Write s.b2asid va bytes] }
    else s.bar2WriteNow s.b2asid va bytes)

/-- An AtomicOp; a 128-bit CAS completes with Unsupported Request (R457). -/
def execBar2Atomicop (off n op value compare : Nat) (s : State) : Result :=
  let va := s.bar2Va off
  .next (if s.hostCut then s else if !s.bar2Open || !(n = 4 || n = 8) || op > 2 then s.answer 1 []
    else if s.bar2Held va n .write then { s with held := s.held ++ [.bar2Atomic s.b2asid va n op value compare] }
    else s.bar2AtomicNow s.b2asid va n op value compare)

/-- R454: the size of BAR2, a power of two from 1 GB to 256 GB; another value leaves it. -/
def execResizableBarWrite (size : Nat) (s : State) : Result :=
  .next (if s.hostCut then s else match [30, 31, 32, 33, 34, 35, 36, 37, 38].find? (fun k => 2 ^ k == size) with
    | some k => { s with b2size := k }
    | none => s)

/-! ### Registers -/

/-- A write to the control block (R452): at level 1 the host's, at level 2 the keystone's; a supervisor core also reaches the block with its
stores (file 18 R450). -/
def execRegisterWrite (offset size value level : Nat) (s : State) : Result :=
  .next (if level ≤ 1 && s.hostCut then s else s.regWrite (level ≤ 1) offset size value level)

/-- A host read of BAR2ERR: COUNT and VA, cleared by the read (R455). -/
def execBar2errRead (s : State) : Result :=
  .next (if s.hostCut then s else (s.answer 0 [s.regRead true 0x50018 8]).regReadEffect true 0x50018 8)

/-- A host read of FLTQLOST: LOST, cleared by the read (file 15 R400). -/
def execFltqlostRead (s : State) : Result :=
  .next (if s.hostCut then s else (s.answer 0 [s.regRead true 0x31010 8]).regReadEffect true 0x31010 8)

/-- The runtime writes FLTQPTR.HEAD (file 15 R403); `value` is the 64-bit register value. -/
def execFltqptrHeadWrite (value : Nat) (s : State) : Result := .next (s.writeHead (bits value 32 32))

/-- ADMLIM (file 11 R332). -/
def execAdmlimWrite (value : Nat) (s : State) : Result := .next (s.byHost false (fun s => s.writeAdmlim value))

/-- STCTL.POISON of a stream: ring 0 is the frame ring, 1 the bitstream ring (file 18 R453). -/
def execStctlPoison (stream ring pidx : Nat) (s : State) : Result :=
  .next (s.byHost false (fun s => s.poison stream (ring == 1) pidx))

/-- STCTL.IRQ (file 18 R453). -/
def execStctlIrq (stream : Nat) (on : Bool) (s : State) : Result :=
  .next (s.byHost false (fun s => if stream < 512 then s.updStream stream (fun st => { st with irq := on }) else s))

/-- SUSP of a queue control word (file 11 R349). -/
def execQueueSuspend (queue : Nat) (on : Bool) (s : State) : Result :=
  .next (s.byHost false (fun s => if queue < 576 then s.setSusp queue on else s))

/-- RANK of a best-effort queue (file 11 R349). -/
def execQueueRank (queue rank : Nat) (s : State) : Result := .next (s.byHost false (fun s => s.setRank queue rank))

/-- FPUSH (file 14 R390). -/
def execFpush (value : Nat) (s : State) : Result := .next (s.byHost false (fun s => s.pushFrame value))

/-- HMBX (file 18 R452): a mailbox write of the host; before READY it is ignored (file 20 R474). -/
def execHmbxWrite (desc value : Nat) (s : State) : Result :=
  .next (s.byHost false (fun s => s.mailbox desc (BitVec.ofNat 64 value)))

/-- HINTR (file 18 R458). -/
def execHintrWrite (value : Nat) (s : State) : Result := .next (s.byHost false (fun s => s.hintr value))

/-- RPSTAT.ARM (file 18 R459). -/
def execRpstatArm (port : Nat) (s : State) : Result :=
  .next (s.byHost false (fun s => s.updPort port (fun P => { P with aborted := false })))

/-- MCTL.RESET (file 20 R474, R485). -/
def execMctlReset (s : State) : Result := .next (s.byHost true (fun s => s.plinthReset 2))

/-- MCTL.JCLR (file 20 R478): latched for the next start. -/
def execMctlJclr (s : State) : Result := .next (s.byHost true (fun s => { s with flash := { s.flash with jclr := true } }))

/-- MCTL.RLOAD with RLEN (file 20 R484). -/
def execMctlRload (len : Nat) (s : State) : Result := .next (s.byHost true (fun s => s.recoveryLoad len))

/-- The host clears the mask bit of a vector (file 18 R458). -/
def execMsixVectorUnmask (vector : Nat) (s : State) : Result := .next (s.byHost true (fun s => s.setMask vector false))

/-! ### Dispositions (file 15 R405-R407) -/

def execFdispResume (token strand : Nat) (s : State) : Result := .next (s.dispose false 0 token strand)
def execFdispSkiprep (token strand : Nat) (s : State) : Result := .next (s.dispose false 1 token strand)
def execFdispSkip (token strand : Nat) (s : State) : Result := .next (s.dispose false 2 token strand)
def execFdispTerm (token strand : Nat) (s : State) : Result := .next (s.dispose false 3 token strand)
def execFdispKill (token strand : Nat) (s : State) : Result := .next (s.dispose false 4 token strand)

/-- The keystone's own register, of the layout of FDISP (R405). -/
def execKeystoneDisposition (disp token strand : Nat) (s : State) : Result := .next (s.dispose true disp token strand)

/-! ### Firmware and course errors (file 01 R34, file 15 R407, file 20 R481) -/

/-- An uncorrectable ECC error in firmware memory is keystone event 0x81 with the address: a record in the keystone's queue and a
copy in the fault queue; no strand is named (R34, R407). -/
def execFirmwareEccError (addr : Nat) (s : State) : Result :=
  let r : Record := { kind := 1, code := 0x81, tinfo := addr, cycle := s.cycle }
  .next (({ s with ksQueue := s.ksQueue ++ [r] }.countUncor 5).post r)

/-- The launches with a team on a course, whole or saved from it. -/
def State.launchesOn (s : State) (c : Nat) : List Nat :=
  ((s.teams.filter (fun p => p.1 < 65536 && (p.2.status == .bound || p.2.status == .loading) && courseOf p.2.core == c)).map
    (fun p => p.2.launch)).eraseDups

/-- The record of a course failure (file 01 R34): TINFO the course number; of a strand on the course, TEPC is the bundle after the last it
retired. It names the first strand there (log 96). -/
def State.failureRecord (s : State) (c : Nat) : Record :=
  let on := s.strands.find? (fun p =>
    p.2.run != .exited && (s.team (teamOf p.1)).status == .bound && !isSupervisor (teamOf p.1) && courseOf (s.coreOf (teamOf p.1)) == c)
  let r : Record := match on with
    | some (k, st) => s.faultRecord k 1 { code := 0x82, tinfo := BitVec.ofNat 64 c, tepc := st.pc, trep := st.rep }
    | none => { kind := 1, code := 0x82, tinfo := c, cycle := s.cycle }
  { r with subj := c }

/-- The blocks of a store course's slices are gone, and what their dirty sectors held is lost: it is free (file 20 R481). -/
def State.loseSlices (s : State) (course : Nat) : State :=
  let lost := s.cache.filter (fun b => s.storeCourses[b.slice / 32]? == some course)
  { s.forEach lost (fun s b =>
      s.forEach ((List.range 16).filter (bit b.dirty)) (fun s i =>
        { s with mem := Memory.writeList s.mem (4096 * b.pblock + 256 * i) ((List.range 256).map (fun j => Config.freeByte (s.freeN + j))),
                 freeN := s.freeN + 256 })) with
    cache := s.cache.filter (fun b => !lost.contains b) }

/-- A course fails in service (file 15 R407, file 20 R481): the event, KILL of its launches with error 0x12, the fence, and, for a
compute course, a role change without its test step; for a store course its dirty sectors are lost and the module stops serving. -/
def execCourseFailure (course : Nat) (s : State) : Result :=
  let r := s.failureRecord course
  let s := { s with ksQueue := s.ksQueue ++ [r] }.post r
  let compute := s.isCompute course
  let s := s.forEach (s.launchesOn course) (fun s l => if (s.launch l).killed then s.jcbError l 0x12 0 0 else s.kill l 0x82 0)
  let s := if compute then s else s.loseSlices course
  let s := ({ s with flash := { s.flash with cfence := s.flash.cfence ||| 2 ^ course } } : State).fence (2 ^ course)
  if compute then
    .next ({ s with pendMap := if bit s.roleMap course then s.roleMap - 2 ^ course else s.roleMap, rcSkipTest := true }.startDrain)
  else
    .next { s with boot := { s.boot with ready := false, fatal := true } }

end Sys2Proof.Machine
end

