-- ==== Sys2Proof/Machine/Rings.lean ====
section
/-! DEFINITION. Panes and shutters (file 03 R108-R113), engine commands as a queue (file 07 R263, R265), ring ports and the
abandonment of a revolution (file 18 R459-R462, R467). -/

namespace Sys2Proof.Machine

/-! ### Items: tiles and panes by name -/

/-- W pane p, X pane p (R86). -/
def paneItem (buf p : Nat) : Nat := if buf = 1 then 32 + p else 1056 + p
/-- Buffer and pane of an item at or above 32. -/
def itemBuf (i : Nat) : Nat := if i < 1056 then 1 else 2
def itemPane (i : Nat) : Nat := if i < 1056 then i - 32 else i - 1056
/-- Key of the first data byte of a pane item in `Team.pane`. -/
def paneBase (i : Nat) : Nat := 4194304 * itemBuf i + 4096 * itemPane i

def Team.shutter (T : Team) (i : Nat) : Shutter := NMap.get .t T.shut i
def Team.setShutter (T : Team) (i : Nat) (x : Shutter) : Team := { T with shut := NMap.set .t T.shut i x }
/-- An incomplete engine command names the item (R110, R113). -/
def Team.named (T : Team) (i : Nat) : Bool := T.cmds.any (fun c => c.items.contains i)
/-- One that a thread access waits for: a pane handed to the ring engine, and named by nothing else, is not waited for (R110, R247). -/
def Team.awaits (T : Team) (i : Nat) : Bool := T.cmds.any (fun c => c.ring.isNone && c.items.contains i)

/-- A command ends: it leaves the queue, and the shutters of the panes it named reopen, but for a pane that a later command still
names or that is to stay closed (R109, R111, R289). -/
def Team.endCmd (T : Team) (id : Nat) (keep : List Nat) : Team :=
  match T.cmds.find? (·.id == id) with
  | none => T
  | some c =>
    let T := { T with cmds := T.cmds.filter (·.id != id) }
    (c.items.filter (fun i => i ≥ 32)).foldl (fun T i =>
      if keep.contains i then T.setShutter i (.ringFailed (c.ring.getD (0, 0)).1 (c.ring.getD (0, 0)).2)
      else if T.named i then T
      else match T.shutter i with
        | .cmd => T.setShutter i .t
        | _ => T) T

def State.endCmd (s : State) (t id : Nat) (keep : List Nat) : State := s.updTeam t (fun T => T.endCmd id keep)

/-- Merge numeric flags of queued work into a strand's FLAGS, saved or running (file 02 R80). -/
def State.mergeFlags (s : State) (k : Nat) (f : BitVec 7) : State := s.updStrand k (fun st => { st with flags := st.flags ||| f })

/-! ### Ring ports -/

def State.ringQueue (s : State) (p : Nat) : List RingCmd := NMap.get [] s.ringCmds p
def State.setRingQueue (s : State) (p : Nat) (l : List RingCmd) : State := { s with ringCmds := NMap.set [] s.ringCmds p l }

/-- LAYER and FRAMELO of a step tag (file 18 R461). -/
def tagLayer (tag : Nat) : Nat := bits tag 16 16
def tagFrame (tag : Nat) : Nat := bits tag 3 11

/-- Fail a ring command with JCB error 0x14 (file 07 R289): the panes an RRECV was to receive stay closed. -/
def State.failRing (s : State) (t id : Nat) (send : Bool) : State :=
  let c := (s.team t).cmds.find? (·.id == id)
  let items := (c.map (·.items)).getD []
  let s := s.endCmd t id (if send then [] else items)
  s.jcbError (s.team t).launch 0x14 ((items.head?.map itemPane).getD 0) 0

/-- The abort word of a revolution (R462). -/
def abortWord (layer frame : Nat) : Nat := 2 ^ 63 + layer % 65536 * 2 ^ 32 + frame % 2048 * 2 ^ 21

/-- A port abandons a revolution (R462), once until a command of the revolution comes anew: ABORTED, the pairs of the revolution fail, the abort
word goes to NEXT and PREV, and vector 512 + p is raised. -/
def State.abandon (s : State) (p layer frame : Nat) : State :=
  if (s.port p).gone.contains (layer, frame) then s else
  let mine := fun (r : RingCmd) => tagLayer r.tag == layer && tagFrame r.tag == frame
  let q := s.ringQueue p
  let s := s.updPort p (fun P => { P with
    aborted := true, alayer := layer, aframe := frame, gone := (layer, frame) :: P.gone
    sent := P.sent ++ [(true, 2 ^ 26 * P.next, abortWord layer frame), (false, P.prevrid, abortWord layer frame)] })
  let s := s.setRingQueue p (q.filter (fun r => !mine r))
  let s := s.forEach (q.filter mine) (fun s r => s.failRing r.team r.cmd r.send)
  s.msix (512 + p)

/-- The revolutions of the pairs that wait at a port. -/
def State.revolutions (s : State) (p : Nat) : List (Nat × Nat) :=
  ((s.ringQueue p).map (fun r => (tagLayer r.tag, tagFrame r.tag))).eraseDups

/-- Cycles a pair waits at a port before its revolution is abandoned (R462). -/
def Port.patience (P : Port) : Nat := (if P.revto = 0 then 1 else P.revto) * 65536

/-- A pair has waited REVTO 2^16 cycles (R462). -/
def execRevolutionTimeout (port layer frame : Nat) (s : State) : Result :=
  .next (match (s.ringQueue port).filter (fun r => tagLayer r.tag == layer && tagFrame r.tag == frame) with
    | [] => s
    | r :: _ => ({ s with cycle := Nat.max s.cycle (r.since + (s.port port).patience) }).abandon port layer frame)

/-- The link to NEXT or PREV goes down (R462): every revolution with a pair in flight is abandoned. -/
def execRingLinkDown (port : Nat) (s : State) : Result :=
  let s1 := s.updPort port (fun P => { P with ideok := false })
  .next (s1.forEach (s1.revolutions port) (fun s r => s.abandon port r.1 r.2))

/-- The IDE stream of a ring port to a neighbour: 0 to NEXT, 1 to PREV (R467). -/
def neighbour (fromNext : Bool) : Nat := if fromNext then 0 else 1

/-- An 8-byte write to the ring window (R460): at offset 0 it sets RMBX, is delivered to mbx(4 + p) of the runtime context (R27), raises
vector 512 + p, and an abort word for a revolution not yet abandoned makes the port abandon it; other offsets below the landing
area are dropped, and so is all that an Insecure IDE stream carries (R467); a landing write's data belongs to RING_PAIR_COMPLETE. -/
def execRingWindowWrite (port : Nat) (fromNext : Bool) (offset value : Nat) (s : State) : Result :=
  if offset != 0 || 3 ≤ port || s.insecure (port + 1) (neighbour fromNext) then .next s else
  let v := BitVec.ofNat 64 value
  let s := s.updPort port (fun P => { P with rmbx := v })
  let s := (s.deliverMbx (4 * runtimeTeam) (4 + port) v).msix (512 + port)
  .next (if value = abortWord (bits value 32 16) (bits value 21 11) then s.abandon port (bits value 32 16) (bits value 21 11) else s)

/-! ### IDE (file 18 R467) and SPDM (R466) -/

/-- Recompute IDEOK of a ring port. -/
def State.ideOk (s : State) (port : Nat) : State :=
  if port = 0 then s else
  let up := fun (i : Nat) => (NMap.get {} s.ide (ideKey port i)).state == 1
  s.updPort (port - 1) (fun P => { P with ideok := up 0 && up 1 })

/-- IDE_KM inside a secure SPDM session sets a stream's key; a refresh loses no request (R467). Outside a session it is refused. -/
def execIdeKm (port stream key : Nat) (s : State) : Result :=
  .next (if (NMap.get {} s.spdm port).secured && stream < 2 then
      ({ s with ide := NMap.set {} s.ide (ideKey port stream) { state := 1, key := key } }).ideOk port
    else s)

/-- An integrity failure of an established stream (R467): the stream is Insecure; on a ring port IDEOK clears and the revolution is abandoned. -/
def execIdeIntegrityFailure (port stream : Nat) (s : State) : Result :=
  let e := NMap.get {} s.ide (ideKey port stream)
  if e.state != 1 then .next s else
  let s := ({ s with ide := NMap.set {} s.ide (ideKey port stream) { e with state := 2 } }).ideOk port
  .next (if port = 0 then s else s.forEach (s.revolutions (port - 1)) (fun s r => s.abandon (port - 1) r.1 r.2))

/-- A response: its code is that of the SPDM family (log 54). -/
def State.respond (s : State) (port code : Nat) (data : List Nat) (f : Spdm → Spdm) : State :=
  { s with spdm := NMap.upd {} s.spdm port (fun d => { (f d) with out := (code, data) :: d.out }) }

/-- Response code of an SPDM error: the request is not served. -/
def spdmError : Nat := 0x7F

/-- Version 1.2 (R466); a new GET_VERSION begins the connection afresh. -/
def execGetVersion (port : Nat) (s : State) : Result :=
  .next (s.respond port 0x04 [0x12] (fun d => { d with version := true, caps := false, algs := false, session := false, secured := false }))

def execGetCapabilities (port : Nat) (s : State) : Result :=
  .next (if (NMap.get {} s.spdm port).version then s.respond port 0x61 (Config.spdmContent 0x61 0) (fun d => { d with caps := true })
         else s.respond port spdmError [] id)

/-- The responder's only algorithms: ECDSA P-521 (0x100 of the base asymmetric list) and SHA-512 (4 of the base hash list) (R466). -/
def execNegotiateAlgorithms (port : Nat) (s : State) : Result :=
  .next (if (NMap.get {} s.spdm port).caps then s.respond port 0x63 [521, 512] (fun d => { d with algs := true })
         else s.respond port spdmError [] id)

/-- Digest of the certificate chain of slot 0 (R466). -/
def execGetDigests (port : Nat) (s : State) : Result :=
  .next (if (NMap.get {} s.spdm port).algs then s.respond port 0x01 (Config.spdmContent 0x01 0) id
         else s.respond port spdmError [] id)

/-- A part of the chain of slot 0; the other slots hold none (R466). -/
def execGetCertificate (port slot offset length : Nat) (s : State) : Result :=
  .next (if (NMap.get {} s.spdm port).algs && slot = 0 then
      s.respond port 0x02 (((Config.spdmContent 0x02 0).drop offset).take length) id
    else s.respond port spdmError [] id)

/-- A challenge of the identity key of slot 0 (R466). -/
def execChallenge (port slot nonce : Nat) (s : State) : Result :=
  .next (if (NMap.get {} s.spdm port).algs && slot = 0 then s.respond port 0x03 (Config.spdmContent 0x03 nonce) id
         else s.respond port spdmError [] id)

/-- A measurement in force (R466): 1 and 2 the SHA-512 of the image parts, as steps 2 and 9 have recorded them (file 20 R482), 3 role map and
class, 4 the SHA-512 over the bytes of the codebooks, whose entries are of 16 bits, 5 the journal records of the last start. -/
def State.measurement (s : State) (i : Nat) : List Nat :=
  match i with
  | 1 => s.boot.meas1.toList
  | 2 => s.boot.meas2.toList
  | 3 => [s.roleMap % 64, s.cls % 4]
  | 4 => [Config.sha512 (((List.range 65536).map (fun j => [NMap.get 0 s.books j % 256, NMap.get 0 s.books j / 256 % 256])).flatten)]
  | 5 => ((s.flash.journal.filter (fun p => p.2.bootn == s.boot.bootn)).map (fun p => p.2.word))
  | _ => []

def execGetMeasurements (port index nonce : Nat) (s : State) : Result :=
  .next (if (NMap.get {} s.spdm port).algs then
      s.respond port 0x60 (s.measurement index ++ Config.spdmContent 0x60 nonce) id
    else s.respond port spdmError [] id)

def execKeyExchange (port slot exchange : Nat) (s : State) : Result :=
  .next (if (NMap.get {} s.spdm port).algs && slot = 0 then
      s.respond port 0x64 (Config.spdmContent 0x64 exchange) (fun d => { d with session := true })
    else s.respond port spdmError [] id)

/-- FINISH completes the session when its verification data is right. -/
def execFinish (port mac : Nat) (s : State) : Result :=
  .next (if (NMap.get {} s.spdm port).session && Config.finishOk mac then s.respond port 0x65 [] (fun d => { d with secured := true })
         else s.respond port spdmError [] (fun d => { d with session := false }))

end Sys2Proof.Machine
end

