-- ==== Sys2Proof/Machine/Heat.lean ====
section
/-! DEFINITION. Events of the thermal controller, of role changes and of start-up (files 16, 13, 20). -/

namespace Sys2Proof.Machine

/-! ### The clock of a core and of its matrix engine (file 16 R428-R430; file 07 R301; file 08 R313) -/

/-- The first multiple of 16 after the cycle on which TARGET was set (R429). -/
def Cluster.patternDue (K : Cluster) : Nat := (K.tset / 16 + 1) * 16

/-- The pattern in force on a cycle (R429). -/
def Cluster.patternAt (K : Cluster) (t : Nat) : Nat := if K.target != K.pattern && K.patternDue ≤ t then K.target else K.pattern

/-- Whether a core's clock advances on a cycle: its cluster's pattern passes it and no stretch removes it (R428, R430). -/
def State.passes (s : State) (core t : Nat) : Bool :=
  bit ((s.cluster (clusterOf core)).patternAt t) (t % 16) && (s.course (courseOf core)).stretch != some t

/-- An M operation that reads or writes W or X: a tile is never stalled by refresh (R313). -/
def usesBuffers : Instr → Bool
  | .mma _ => true
  | .mmaz _ => true
  | .mmag _ => true
  | .mld _ => true
  | .mst _ => true
  | _ => false

/-- Whether the matrix engine advances on a cycle at an operation (R301, R313). -/
def State.mPasses (s : State) (core : Nat) (i : Instr) (t : Nat) : Bool :=
  s.passes core t && !((s.course (courseOf core)).fast && t % 36 < 4 && usesBuffers i)

/-- `n` cycles from `t` on on which the matrix engine advances at an operation. -/
def State.passList (s : State) (core : Nat) (i : Instr) : Nat → Nat → Nat → List Nat
  | 0, _, _ => []
  | fuel + 1, t, n =>
    if n = 0 then []
    else if s.mPasses core i t then t :: s.passList core i fuel (t + 1) (n - 1) else s.passList core i fuel (t + 1) n

/-- The first cycle from `t` on on which a core's clock advances (file 16 R428); the supervisor cores' always does. -/
def State.passFrom (s : State) (core t : Nat) : Nat → Option Nat
  | 0 => none
  | n + 1 => if core ≥ 192 || s.passes core t then some t else s.passFrom core (t + 1) n

/-- The cycle on which a core's clock advances again after `n` cycles from `t` on that it advances on and that some work can use
(file 15 R424). -/
def State.passEnd (s : State) (core : Nat) (usable : Nat → Bool) : Nat → Nat → Nat → Nat
  | 0, t, n => t + n
  | fuel + 1, t, n =>
    if n = 0 then (s.passFrom core t 40).getD t
    else s.passEnd core usable fuel (t + 1) (if (core ≥ 192 || s.passes core t) && usable t then n - 1 else n)

/-- The bundle that a core issues ends later where its clock loses cycles (file 15 R424). -/
def State.retimeBundle (s0 s : State) (core : Nat) (K : Core) : Core :=
  if K.bundleEnd ≤ s.cycle then K else
  let left := (((List.range (K.bundleEnd - (s.cycle + 1))).map (s.cycle + 1 + ·)).filter (fun t => core ≥ 192 || s0.passes core t)).length
  let e := s.passEnd core (fun _ => true) (20 * left + 64) (s.cycle + 1) left
  { K with bundleEnd := e, nextIssue := K.nextIssue + e - K.bundleEnd }

/-- The counted cycles that a running operation still has are laid out again, and charged where they now fall, after the clock changed
from `s0` to `s` (R301, R316). -/
def State.retime (s0 s : State) (core : Nat) (K : Core) : Core :=
  let K := s0.retimeBundle s core K
  match K.mrun with
  | none => K
  | some r =>
    let left := ((List.range (r.done - s.cycle)).map (s.cycle + 1 + ·)).filter (s0.mPasses core r.op.op)
    let ts := s.passList core r.op.op (20 * left.length + 64) (s.cycle + 1) left.length
    { K with
      mrun := some { r with done := ts.getLastD r.done }
      meter := K.meter.filter (fun p => p.1 ≤ s.cycle) ++ ts.map (fun t => (t, r.rate)) }

/-- The machine with every running M operation and every bundle that issues at the clock of `s` in place of that of `s0`. -/
def State.retimed (s0 s : State) : State := { s with cores := s.cores.map (fun p => (p.1, s0.retime s p.1 p.2)) }

/-! ### Thermal controller -/

/-- The cycle on which the control period that runs ends (file 16 R425). -/
def State.periodEnd (s : State) : Nat := 65536 * (s.period + 1)

/-- The end of a control period (file 16 R425): at a cycle that is a multiple of 65,536; `temps` are the 48 sensor samples in 1/256
degrees by cluster, `power` the measured power of the period in mW (R431). -/
def execControlPeriodEnd (temps : List Nat) (power : Nat) (s : State) : Result :=
  let s := { s with cycle := Nat.max s.cycle s.periodEnd, period := s.period + 1 }
  .next (s.retimed (s.controlPeriod temps power))

/-- M operations of a cluster's cores that have not completed. -/
def State.clusterM (s : State) (kc : Nat) : Bool :=
  (List.range 4).any (fun i => !(s.core (4 * kc + i)).mq.isEmpty || (s.core (4 * kc + i)).mrun.isSome)

/-- A stopped cluster with no team and no M operation left goes to P(0) (R439). -/
def execClusterHalt (course cluster : Nat) (s : State) : Result :=
  let k := 8 * course + cluster
  .next (if (s.cluster k).stop && !s.clusterM k && (List.range 4).all (fun i => (s.residents (4 * k + i)).isEmpty) then
      s.retimed (s.updCluster k (fun K => { K with target := pattern 0, tset := s.cycle }))
    else s)

/-- A new TARGET takes effect at the first later cycle that is a multiple of 16 (R429). -/
def execPatternChange (course cluster : Nat) (s : State) : Result :=
  let k := 8 * course + cluster
  .next (if (s.cluster k).target = (s.cluster k).pattern then s
    else ({ s with cycle := Nat.max s.cycle (s.cluster k).patternDue }).updCluster k (fun K => { K with pattern := K.target }))

/-- The end of a cluster's dwell (R436). -/
def execDwellEnd (course cluster : Nat) (s : State) : Result :=
  let k := 8 * course + cluster
  .next (match (s.cluster k).dwellEnd with
    | some t => ({ s with cycle := Nat.max s.cycle t }).updCluster k (fun K => { K with dwellEnd := none })
    | none => s)

/-- A droop stretches the next cycle of a course (R430): CDROOP counts it and the matrix engines lose the cycle. At most one
stretch falls in any 4 consecutive cycles. -/
def execDroopStretch (course : Nat) (s : State) : Result :=
  let t := s.cycle + 1
  let recent := match (s.course course).stretch with
    | some u => decide (t < u + 4)
    | none => false
  if recent then .next s else
  .next (s.retimed (s.updCourse course (fun C => { C with droops := C.droops + 1, stretch := some t })))

/-- The cycle on which a course's next refresh operation is due (R313): in the slot of every 36 cycles on the faster schedule, else every 72
cycles, as soon as it is due. -/
def Course.refreshDue (C : Course) : Nat :=
  let n := if C.fast then 36 else 72
  (C.refreshed / n + 1) * n

/-- One refresh operation: the next of the 1,024 panes or blocks of the course (file 08 R313, R314). The schedule of the next is the one that
REFX2 now asks for (R440). -/
def execRefreshOperation (course : Nat) (s : State) : Result :=
  let t := Nat.max s.cycle (s.course course).refreshDue
  .next (({ s with cycle := t } : State).updCourse course (fun C => { C with refresh := (C.refresh + 1) % 1024, refreshed := t, fast := C.refx2 }))

/-! ### Role changes (file 13 R371-R375) -/

/-- Give the result of the oldest waiting service operation of a strand (file 07 R302). -/
def finishFirst (now value : Nat) : List Pending → List Pending
  | [] => []
  | p :: r => if !p.global && !p.done && p.req.isNone then { p with done := true, value := value, due := now } :: r else p :: finishFirst now value r

def State.finishPend (s : State) (k value : Nat) : State :=
  s.updStrand k (fun st => { st with pend := finishFirst s.cycle value st.pend })

/-- Nothing runs, loads or spills on any compute core. -/
def State.drained (s : State) : Bool :=
  s.teams.all (fun p => p.1 ≥ 65536 || ((p.2.status == .none || p.2.status == .saved) && p.2.toSpill.isEmpty && p.2.cmds.isEmpty)) &&
    s.cores.all (fun p => p.2.mq.isEmpty && p.2.mrun.isNone && p.2.swap.isNone)

/-- The drain ends and the flush begins (R371): it ends only when every team is out. -/
def execRoleChangeDrainDone (s : State) : Result :=
  .next (if s.rcState = 2 && s.drained then { s with rcState := 3 } else s)

/-! ### Starts (file 20) -/

/-- Power-on: a plinth reset with cause 0 (R474). -/
def execPowerOn (s : State) : Result := .next (s.plinthReset 0)

/-- A hot reset or link-down of the host port: cause 1 (R474). -/
def execHostHotReset (s : State) : Result := .next (if s.boot.powered then s.plinthReset 1 else s)

/-- The step watchdog: cause 3, when a step runs past 4 times its bound (R478). -/
def execStepWatchdog (s : State) : Result :=
  .next (if s.starting then ({ s with cycle := Nat.max s.cycle s.watchdogAt } : State).plinthReset 3 else s)

/-- A start-up step ends (R475-R478). -/
def execStartStepEnd (pass : Bool) (mask detail : Nat) (s : State) : Result := .next (s.endStep pass mask detail)

/-- The module loses power (R478): only flash and fuses remain; a flash write of the recovery loader may be cut, and then the image no
longer verifies (R475 cases). -/
def execPowerLoss (s : State) : Result :=
  let f := { s.flash with unfinished := s.flash.unfinished || s.boot.recovery && Config.flashCut s.freeN }
  .next { State.reset with flash := f, boot := { powered := false, bootn := f.bootn }, agenda := s.agenda, freeN := s.freeN + 1 }

end Sys2Proof.Machine
end

