-- ==== Sys2Proof/Machine/Flags.lean ====
section
/-! DEFINITION. Numeric flags (file 01 R29, R30; file 02 R79): their bits, and how an instruction raises them. -/

namespace Sys2Proof.Machine

/-- The seven numeric flags, bits as in the FLAGS register (R29). -/
abbrev Flags := BitVec 7

def fNV : Flags := 1
def fDZ : Flags := 2
def fOF : Flags := 4
def fUF : Flags := 8
def fNX : Flags := 16
def fSAT : Flags := 32
def fRCLIP : Flags := 64

/-- A flag where a condition holds. -/
def flagIf (c : Bool) (f : Flags) : Flags := if c then f else 0

/-- The union of the flags of a list. -/
def orFlags (l : List Flags) : Flags := l.foldl (· ||| ·) 0

/-- Set FLAGS bits of the issuing strand; they stay until software clears them (R30). -/
def State.setFlags (s : State) (f : Flags) : State := s.setSt (fun st => { st with flags := st.flags ||| f })

/-- The arithmetic trap of R30, R152, R210: FLAGS is set, TINFO holds the raised bits. -/
def arithTrap (f : Flags) : TrapRec := { prio := 130, code := 0x08, tinfo := f.zeroExtend 64, flags := f }

/-- The end of an instruction that raises the flags `f`: the trap where TRAPEN, as it stood before the bundle, enables one of
them; otherwise its effect and the FLAGS bits (R30, R35). -/
def State.numeric (s : State) (f : Flags) (effect : State → State) : State :=
  if f &&& ((s.iss.snap.getD s.st).trapen) = 0 then (effect s).setFlags f else s.raise (arithTrap f)

end Sys2Proof.Machine
end

