-- ==== Sys2Proof/Machine/Operands.lean ====
section
/-! DEFINITION. Operand forms of the slots (file 00 R11; file 04 R125-R131; file 06 R208, R209; file 07 R244): registers, predicates
and guards as they stand before the bundle, destinations, transom copies, and the pane, tile and space operands. -/

namespace Sys2Proof.Machine

/-! ### Reading: the values before the bundle (R11, R128, R135, R233) -/

/-- The registers that the slots of the bundle read. -/
def State.rs (s : State) : Strand := s.iss.snap.getD s.st
/-- The team's tiles and panes as the slots of the bundle read them (file 06 R233). -/
def State.rt (s : State) : Team := s.iss.tsnap.getD s.tm

def State.aR (s : State) (n : Nat) : Word := NMap.get 0 s.rs.a n
def State.bR (s : State) (n : Nat) : VA := NMap.get 0 s.rs.b n
def State.dR (s : State) (n : Nat) : Word := NMap.get 0 s.rs.d n

/-- Key of lane `l` of register `n` of a bay, and of its tag. -/
def vKey (bay n l : Nat) : Nat := (64 * bay + n) * 16 + l
def vTagKey (bay n : Nat) : Nat := 64 * bay + n

def State.vR (s : State) (bay n l : Nat) : Lane := NMap.get 0 s.rs.v (vKey bay n l)
/-- The sixteen lanes of a register. -/
def State.vRow (s : State) (bay n : Nat) : List Lane := NMap.getList 0 s.rs.v (vKey bay n 0) 16
def State.vTagR (s : State) (bay n : Nat) : Nat := NMap.get 0 s.rs.vtag (vTagKey bay n)

/-- The S bit of a predicate; p0 reads 1 (file 05 R176). -/
def Strand.pS (st : Strand) (n : Nat) : Bool := n == 0 || NMap.get false st.ps n
/-- The 128 lane bits of a predicate; p0 reads all ones (file 05 R176). -/
def Strand.pL (st : Strand) (n : Nat) : BitVec 128 := if n = 0 then BitVec.allOnes 128 else NMap.get 0 st.pl n

def State.pS (s : State) (n : Nat) : Bool := s.rs.pS n
def State.pL (s : State) (n : Nat) : BitVec 128 := s.rs.pL n
/-- Lane bit `l` of bay `bay` of a predicate. -/
def State.pLane (s : State) (n bay l : Nat) : Bool := (s.pL n).getLsbD (16 * bay + l)

/-! ### Writing -/

def Strand.setA (st : Strand) (n : Nat) (v : Word) : Strand := { st with a := NMap.set 0 st.a n v }
def State.setA (s : State) (n : Nat) (v : Word) : State := s.setSt (fun st => st.setA n v)
def State.setB (s : State) (n : Nat) (v : VA) : State :=
  s.setSt (fun st => { st with b := NMap.set 0 st.b n v, bwrite := NMap.set 0 st.bwrite n st.issues })

/-- Write the active lanes of a register and its tag, if a lane is written (file 02 R73, file 06 R209). -/
def Strand.setLanes (st : Strand) (bay n tag : Nat) (act : Nat → Bool) (vals : List Lane) : Strand :=
  if (List.range 16).any act then
    let row := (List.range 16).map (fun l =>
      if act l then vals.getD l 0 else NMap.get 0 st.v (vKey bay n l))
    { st with v := NMap.setList 0 st.v (vKey bay n 0) row, vtag := NMap.set 0 st.vtag (vTagKey bay n) tag }
  else st

def State.setLanes (s : State) (bay n tag : Nat) (act : Nat → Bool) (vals : List Lane) : State :=
  s.setSt (fun st => st.setLanes bay n tag act vals)

/-- Write bits of a predicate: the S bit, and the lane bits that a mask selects; a write to p0 is discarded (file 04 R127). -/
def Strand.setP (st : Strand) (n : Nat) (sbit : Option Bool) (mask lanes : BitVec 128) : Strand :=
  if n = 0 then st else
  { st with
    ps := match sbit with | some b => NMap.set false st.ps n b | none => st.ps
    pl := NMap.set 0 st.pl n ((NMap.get 0 st.pl n &&& ~~~mask) ||| (lanes &&& mask)) }

/-- Write a truth value to S and every lane of a predicate (file 05 R184, R199). -/
def Strand.setPAll (st : Strand) (n : Nat) (c : Bool) : Strand :=
  st.setP n (some c) (BitVec.allOnes 128) (if c then BitVec.allOnes 128 else 0)

def State.setP (s : State) (n : Nat) (sbit : Option Bool) (mask lanes : BitVec 128) : State :=
  s.setSt (fun st => st.setP n sbit mask lanes)
def State.setPAll (s : State) (n : Nat) (c : Bool) : State := s.setSt (fun st => st.setPAll n c)

/-! ### Guards (R128) -/

/-- A C, A, M or D slot instruction under its guard: a guard of 0 suppresses it. -/
def State.guarded (s : State) (g : Nat) (effect : State → State) : State := if s.pS g then effect s else s

/-- Active lanes of a bay. -/
def State.active (s : State) (g bay : Nat) : Nat → Bool := fun l => s.pLane g bay l
/-- Some lane of the bay is active. -/
def State.anyActive (s : State) (g bay : Nat) : Bool := (List.range 16).any (s.active g bay)

/-! ### Transom copies (R137) -/

/-- Start a transom copy that lands `lat` cycles after the bundle's issue cycle. -/
def State.transom (s : State) (lat : Nat) (dest : TransomDest) (vals : List Nat) (tag : Nat) : State :=
  s.setSt (fun st => { st with transom := st.transom ++ [{ due := s.cycle + lat, dest := dest, vals := vals, tag := tag }] })

/-- The scoreboard register of a transom destination. -/
def TransomDest.reg : TransomDest → Reg
  | .b n _ => .b n
  | .v bay n => .v bay n
  | .a n => .a n
  | .latch _ => .latch

/-- A transom write lands on its destination (R137, file 05 R156, R197, file 06 R239, file 07 R254). -/
def Strand.land (st : Strand) (w : TransomWrite) : Strand :=
  match w.dest with
  | .b n _ => { st with b := NMap.set 0 st.b n (BitVec.ofNat 56 (w.vals.getD 0 0)) }
  | .a n => { st with a := NMap.set 0 st.a n (BitVec.ofNat 64 (w.vals.getD 0 0)) }
  | .v bay n => st.setLanes bay n w.tag (fun _ => true) (w.vals.map (BitVec.ofNat 32))
  | .latch half => { st with latch := NMap.setList 0 st.latch (32 * half) w.vals }

/-- Land a transom write over the ordinary writes of its register that come later: they keep what they write (R137). -/
def Strand.landUnder (st : Strand) (w : TransomWrite) : Strand :=
  match w.dest with
  | .v bay n =>
    match st.masked.filter (fun m => m.1 == 64 * bay + n && decide (w.due < m.2.1)) with
    | [] => st.land w
    | ms =>
      let lanes := (ms.map (fun m => m.2.2)).flatten
      { st with v := ((List.range 16).zip w.vals).foldl (fun v p =>
          if lanes.contains p.1 then v else NMap.set 0 v (16 * (64 * bay + n) + p.1) (BitVec.ofNat 32 p.2)) st.v }
  | _ => if st.ready.any (fun r => r.1 == w.dest.reg && r.2 > w.due) then st else st.land w

/-- Land the writes due by a cycle, in the order they fall due. -/
def Strand.landAll (st : Strand) (now : Nat) : Strand :=
  let due := st.transom.filter (fun w => w.due ≤ now)
  let st' := { st with transom := st.transom.filter (fun w => !(w.due ≤ now)) }
  (sortBy (fun (w : TransomWrite) => w.due) due).foldl Strand.landUnder st'

/-! ### Fields of A-slot operands -/

/-- IMM32 sign-extended (R11, file 05 R178). -/
def simm32 (x : Nat) : Word := (BitVec.ofNat 32 x).signExtend 64
/-- IMM12 sign-extended. -/
def simm12 (x : Nat) : Word := (BitVec.ofNat 12 x).signExtend 64

end Sys2Proof.Machine
end

