-- ==== Sys2Proof/Machine/Retire.lean ====
section
/-! DEFINITION. Instruction fetch (file 04 R119, R121; file 05 R159) and the retirement of a bundle repetition: the hardware loops
(file 05 R160-R166), groups (file 04 R133) and the next issue point. -/

namespace Sys2Proof.Machine

/-! ### Fetch -/

/-- A code word at physical address `pa` through a list of renewals of the fetch view: code appears there only once its writer has
published it at .dev (R159). -/
def State.codeWord (s : State) (k pa ty : Nat) (rs : List Renewal) : Nat :=
  leNat ((List.range 4).map (fun i => if ty < 2 then (s.viewBy (fun p => p.scope ≥ 2) k (pa + i) rs).2 else Memory.read s.mem (pa + i)))

/-- Fetch the word at an address for strand `k` (R119): its value, or the code of the fault. -/
def State.fetchWord (s : State) (k va : Nat) (rs : List Renewal) : State × Except Nat Nat :=
  match s.strandAccess k va .exec with
  | (s, .ok pa ty _ _) =>
    match targetOf pa with
    | .dram => (s, .ok (s.codeWord k pa ty (renewalsAt va rs)))
    | _ => (s, .error 0x41)
  | (s, .page) => (s, .error 0x40)
  | (s, .prot) => (s, .error 0x41)

/-- The words of a bundle from `va`, `n` of them: the words, or the fault and its address. -/
def State.fetchWords (s : State) (k va : Nat) (rs : List Renewal) : Nat → State × Except (Nat × Nat) (List Nat)
  | 0 => (s, .ok [])
  | n + 1 =>
    match s.fetchWord k va rs with
    | (s, .error c) => (s, .error (c, va))
    | (s, .ok w) =>
      match s.fetchWords k ((va + 4) % 2 ^ 56) rs n with
      | (s, .ok ws) => (s, .ok (w :: ws))
      | r => r

/-- The word at an address as the group check and a look-ahead read it: no page grows and nothing is cached. -/
def State.lookWord (s : State) (k va : Nat) : Option Nat :=
  match sramAt k va with
  | some pa => some (s.codeWord k pa 2 [])
  | none =>
  match s.walk (s.team (teamOf k)).asid va with
  | .leaf pte _ _ large =>
    let pa := ptePA pte + (if large then va % 67108864 else va % 65536)
    if (bit (ptePerm pte) 2 || (s.strand k).level != 0) && targetOf pa == .dram then
      some (s.codeWord k pa (pteType pte) (renewalsAt va (s.strand k).irenew)) else none
  | _ => none

def State.lookWords (s : State) (k va : Nat) : Nat → Option (List Nat)
  | 0 => some []
  | n + 1 =>
    match s.lookWord k va, s.lookWords k ((va + 4) % 2 ^ 56) n with
    | some w, some ws => some (w :: ws)
    | _, _ => none

/-- The address of the bundle that follows the bundle at `va` (R161): its length is taken from its header; a padding word counts
as one word. A fault carries its code and TINFO. -/
def State.afterBundle (s : State) (k va : Nat) : State × Except (Nat × Nat) VA :=
  match s.fetchWord k va (s.strand k).irenew with
  | (s, .error c) => (s, .error (c, va))
  | (s, .ok w) =>
    if w = paddingWord then (s, .ok (BitVec.ofNat 56 (va + 4)))
    else if (getHeader w).kind != 0 then (s, .error (0x01, 16))
    else (s, .ok (BitVec.ofNat 56 (va + 4 * (1 + (getHeader w).body))))

/-! ### Hardware loops -/

/-- Levels on which the loop rules act: those not frozen (R166). -/
def liveLevels (l : List LoopLevel) : List LoopLevel := l.filter (fun x => !x.frozen)

/-- The end test of R162: the stack after it, and where the innermost loop that goes on starts. -/
def endTest (pc : VA) : List LoopLevel → List LoopLevel × Option VA
  | [] => ([], none)
  | l :: r =>
    if l.frozen || l.last != pc then (l :: r, none)
    else if l.remaining - 1 > 0 then ({ l with remaining := l.remaining - 1 } :: r, some l.start)
    else endTest pc r

/-- The range rule of R163 for a taken branch. -/
def popRange (target : VA) : List LoopLevel → List LoopLevel
  | [] => []
  | l :: r => if l.frozen || (l.start ≤ target && target ≤ l.last) then l :: r else popRange target r

/-- Sequential flow above the innermost `last` pops that level (R163). -/
def popPassed (pc : VA) : List LoopLevel → List LoopLevel
  | [] => []
  | l :: r => if l.frozen || pc ≤ l.last then l :: r else popPassed pc r

/-- The bundle being issued is the last of an armed loop's body; a frozen level does not count (log 102). -/
def Strand.atLast (st : Strand) : Bool := (liveLevels st.loops).any (fun l => l.last == st.pc)

/-! ### Retirement -/

/-- The control flow at the retirement of a repetition (R130, R133, R162, R163). -/
def Strand.retire (st : Strand) (iss : Issue) : Strand :=
  let ends := iss.groupEnd || st.atLast
  let st' := { st with bnd := none, grpPos := if ends then 0 else st.grpPos + 1, grpChecked := !ends, lastPc := st.pc, lastRep := st.rep }
  match iss.jump with
  | some t =>
    { st' with pc := t, rep := 0, grpPos := 0, grpChecked := false, loops := if iss.branch then popRange t st.loops else st.loops }
  | none =>
    if st.rep < iss.rept then { st' with rep := st.rep + 1 } else
    match endTest st.pc st.loops with
    | (ls, some t) => { st' with pc := t, rep := 0, loops := ls }
    | (ls, none) =>
      let pc := st.pc + BitVec.ofNat 56 iss.bytes
      { st' with pc := pc, rep := 0, loops := popPassed pc ls }

def State.retire (s : State) : State :=
  let s := s.setSt (fun st => st.retire s.iss)
  { s with iss := { s.iss with retired := true } }

/-- Where control goes after the bundle: a taken branch, or a transfer that is none. -/
def State.jumpTo (s : State) (t : VA) (branch : Bool) : State := { s with iss := { s.iss with jump := some t, branch := branch } }

end Sys2Proof.Machine
end

