-- ==== Sys2Proof/Machine/Control.lean ====
section
/-! DEFINITION. The control instructions of the C slot (file 05 R155-R175): prepare and branch, hardware loops, waiting and
barriers, boundaries, traps and exit. -/

namespace Sys2Proof.Machine

/-! ### Prepare and branch -/

/-- Write a b register and start fetching there (R155, R157, R159). -/
def State.setFetch (s : State) (n : Nat) (v : VA) : State :=
  (s.setB n v).setSt (fun st => { st with bfetch := NMap.set [] st.bfetch n st.irenew })

/-- R155. -/
def execPbr (o : OpB) (s : State) : Result :=
  .next (s.guarded o.g (fun s => s.setFetch o.k (s.rs.pc + 4 * (BitVec.ofNat 15 o.disp).signExtend 56)))

/-- R156. -/
def execPbrx (o : OpG) (s : State) : Result :=
  .next (s.guarded o.g (fun s => s.setSt (fun st =>
    { st with
      transom := { due := s.cycle + 2, dest := .b o.d true, vals := [(s.aR o.a).toNat % 2 ^ 56] } :: st.transom
      bwrite := NMap.set 0 st.bwrite o.d st.issues
      bfetch := NMap.set [] st.bfetch o.d st.irenew })))

/-- R157, R158: the branch, the stall of a target prepared late, and a fetch begun before a renewal. -/
def State.branch (s : State) (n : Nat) : State :=
  let t := s.bR n
  let k := s.st.issues - NMap.get 0 s.rs.bwrite n
  let s := (s.jumpTo t true).updCore (s.coreOf (teamOf s.cur)) (fun K => { K with nextIssue := K.nextIssue + (6 - k) })
  s.setSt (fun st =>
    let old := NMap.get [] st.bfetch n
    { st with stale := if old.isEmpty || old == st.irenew then none else some (t, old) })

def State.misalignedTarget (s : State) (n : Nat) : Bool := (s.bR n).toNat % 4 != 0

/-- A misaligned-address trap (code 0x0A): TINFO the address. -/
def misaligned (a : Word) : TrapRec := { prio := 80, code := 0x0A, tinfo := a }

/-- R157. -/
def execBr (o : OpG) (s : State) : Result :=
  .next (s.guarded o.g (fun s =>
    if s.misalignedTarget o.a then s.raise (misaligned ((s.bR o.a).zeroExtend 64)) else s.branch o.a))

/-- R157: BRL writes its return address to b7 and starts fetching there. -/
def execBrl (o : OpG) (s : State) : Result :=
  .next (s.guarded o.g (fun s =>
    if s.misalignedTarget o.a then s.raise (misaligned ((s.bR o.a).zeroExtend 64))
    else (s.branch o.a).setFetch 7 (s.rs.pc + BitVec.ofNat 56 s.iss.bytes)))

/-! ### Hardware loops -/

/-- An illegal-encoding trap at the slot being performed: TINFO its word index, or a value of the entry (R124, R161). -/
def illegalEncoding (tinfo : Nat) : TrapRec := { prio := 10, code := 0x01, tinfo := BitVec.ofNat 64 tinfo }

/-- An illegal-opcode trap: TINFO the slot and the opcode (R144, R174). -/
def illegalOpcode (slot op : Nat) : TrapRec := { prio := 20, code := 0x02, tinfo := BitVec.ofNat 64 (256 * slot + op) }

/-- The trap of a fault met while finding the bundle after `last` (R161). -/
def afterFault (code tinfo : Nat) : TrapRec :=
  if code = 0x01 then illegalEncoding tinfo else { prio := if code = 0x41 then 101 else 100, code := code, tinfo := BitVec.ofNat 64 tinfo }

/-- Continue at the bundle after the bundle at an address (R161, R164). -/
def State.goAfter (s : State) (last : VA) (effect : State → State) : State :=
  match s.afterBundle s.cur last.toNat with
  | (_, .error (c, i)) => s.raise (afterFault c i)
  | (s, .ok t) => (effect s).jumpTo t false

/-- Arm a loop of `n` trips (R161, R165). -/
def State.armLoop (s : State) (o : OpLp) (n : Nat) : State :=
  let start := s.rs.pc + BitVec.ofNat 56 s.iss.bytes
  let last := s.rs.pc + BitVec.ofNat 56 (4 * o.last)
  if s.rs.atLast || last < start then s.raise (illegalEncoding s.iss.word)
  else if n = 0 then s.goAfter last id
  else if s.rs.loops.length ≥ 4 then s.raise { prio := 50, code := 0x0B, tinfo := 4 }
  else s.setSt (fun st => { st with loops := { start := start, last := last, remaining := n } :: st.loops })

/-- R160: the count from an A register. -/
def execLoop (o : OpLp) (s : State) : Result := .next (s.guarded o.g (fun s => s.armLoop o (s.aR o.cnt).toNat))
/-- R160: the count in the instruction. -/
def execLoopi (o : OpLp) (s : State) : Result := .next (s.guarded o.g (fun s => s.armLoop o o.cnt))
/-- R160: the count from a mailbox, read once. -/
def execLoopm (o : OpLp) (s : State) : Result :=
  .next (s.guarded o.g (fun s => s.armLoop o (NMap.get 0 s.rs.mbx o.cnt).toNat))

/-- R164, R165. -/
def execLexit (o : OpN) (s : State) : Result :=
  .next (s.guarded o.g (fun s =>
    let live := liveLevels s.rs.loops
    let n := Nat.min (o.imm + 1) live.length
    if s.rs.atLast then s.raise (illegalEncoding s.iss.word)
    else match live[n - 1]? with
      | none => s
      | some l => s.goAfter l.last (fun s => s.setSt (fun st => { st with loops := st.loops.drop n }))))

/-! ### Waiting, yielding and barriers -/

/-- The earliest promise not later than a wake cycle whose command has not completed (file 03 R117). -/
def State.missed (s : State) (k wake : Nat) : Option Nat :=
  leastOf ((s.team (teamOf k)).cmds.filterMap (fun c =>
    if c.strand = k then (match c.promise with | some p => if p ≤ wake then some p else none | none => none) else none))

/-- The promise check at the end of a SLEEP (R117): trap 0x04 after the bundle has retired. -/
def State.promiseCheck (s : State) (k wake : Nat) : State :=
  match s.missed k wake with
  | some p => s.takeLate k 0x04 (BitVec.ofNat 64 p)
  | none => s

/-- R167. -/
def execSleep (o : OpG) (s : State) : Result :=
  .next (s.guarded o.g (fun s =>
    let a := (s.aR o.a).toNat
    let wake := if o.b = 1 then Nat.min (s.cycle + a) (2 ^ 64 - 1) else a
    let s := s.retire
    if wake ≤ s.cycle then s.promiseCheck s.cur wake
    else s.setSt (fun st => { st with run := .blocked (.sleep wake) })))

/-- The end of a sleep (R117, R167): a strand of a saved team wakes when the team is back. -/
def execSleepWake (strand : Nat) (s : State) : Result :=
  .next (match (s.strand strand).run with
    | .blocked (.sleep wake) =>
      if (s.team (teamOf strand)).status == .bound then
        (({ s with cycle := Nat.max s.cycle wake }).updStrand strand (fun st => { st with run := .ready })).promiseCheck strand wake
      else s
    | _ => s)

/-- R168. -/
def execWaitp (o : OpN) (s : State) : Result :=
  .next (s.guarded o.g (fun s =>
    let s := s.retire
    if (s.st.arrive &&& BitVec.ofNat 16 o.imm) != 0 then s
    else s.setSt (fun st => { st with run := .blocked (.mbx o.imm) })))

/-- R169: arrive, wait, and complete the barrier when every member has arrived. -/
def execBar (o : OpN) (s : State) : Result :=
  .next (s.guarded o.g (fun s =>
    let s := s.retire
    let l := s.tm.launch
    if o.imm = 1 && (s.launch l).gang then
      ((s.setSt (fun st => { st with run := .blocked (.bar true) })).updLaunch l
        (fun L => { L with barArr := s.cur :: L.barArr })).launchBarrier l
    else
      ((s.setSt (fun st => { st with run := .blocked (.bar false) })).setTm
        (fun T => { T with barArr := s.cur :: T.barArr })).teamBarrier (teamOf s.cur)))

/-- The teams of a gang all are in place (file 11 R351): none issues before then. -/
def State.gangUp (s : State) (t : Nat) : Bool :=
  let L := s.launch (s.team t).launch
  !L.gang || (L.bound == (L.hdr.map (·.cores)).getD 0 && L.slots.all (fun u => (s.team u).status == .bound))

/-- The team is past its pre-emption point and issues nothing more (file 15 R412). -/
def State.leaving (s : State) (t : Nat) : Bool :=
  match (s.core (s.coreOf t)).swap with
  | some w => w.swapEnd.isSome && w.outgoing.contains t
  | none => false

/-- A strand that can issue on its core now; of a module in FATAL only the keystone's does (file 20 R481). -/
def State.canIssue (s : State) (k : Nat) : Bool :=
  (!s.boot.fatal || teamOf k == keystoneTeam) && (s.team (teamOf k)).status == .bound && (s.strand k).run == .ready && s.gangUp (teamOf k) && !s.leaving (teamOf k)

/-- The strands of a core, in ascending slot order after a slot, wrapping (R16). -/
def State.slotOrder (s : State) (core after : Nat) : List Nat :=
  let ts := if core ≥ 192 then [65536 + (core - 192)] else s.residents core
  sortBy (fun k => ((s.strand k).slot + 7 - after % 4) % 4) (ts.map s.members).flatten

/-- A core switches to a strand from cycle `t` on, in 4 cycles of its clock (R16); the switch is no pre-emption point (file 15 R423). -/
def State.switchTo (s : State) (core t k : Nat) : State :=
  let e := s.passEnd core (fun _ => true) 144 t 4
  s.updCore core (fun K => { K with slot := some k, nextIssue := e, bundleEnd := e })

/-- R170: switch to the next ready strand, at a cost of 4 cycles. -/
def execYield (o : OpN) (s : State) : Result :=
  .next (s.guarded o.g (fun s =>
    let c := s.coreOf (teamOf s.cur)
    match (s.slotOrder c s.st.slot).find? (fun k => k != s.cur && s.canIssue k) with
    | some k => s.switchTo c (Nat.max (s.core c).nextIssue (s.cycle + 1)) k
    | none => s))

/-! ### Boundaries, traps and exit -/

/-- A fault of a publication, taken precisely at its instruction (file 14 R501): TINFO the address of the first store. -/
def memFault (code va : Nat) : TrapRec :=
  { prio := if code = 0x40 then 100 else if code = 0x41 then 101 else 110, code := code, tinfo := BitVec.ofNat 64 va }

/-- Cycles until a boundary of a scope retires (file 08 R307), beyond its issue. -/
def boundaryCycles (scope n : Nat) : Nat := if scope = 0 then 6 else if scope = 1 then 24 + n else 64 + n

/-- A supervisor core's accesses and publications at the block cache wait while the home slices move (file 13 R375). -/
def State.homesMove (s : State) : Bool := s.holding && isSupervisor (teamOf s.cur)

/-- No bundle of the issuing strand issues before a cycle. -/
def State.holdUntil (s : State) (t : Nat) : State := s.setSt (fun st => { st with notBefore := Nat.max st.notBefore t })

/-- The scope at which a boundary of the issuing strand acts: on a supervisor core .course acts as .dev (file 03 R95). -/
def State.scopeOf (s : State) (x : Nat) : Nat := if x = 1 && isSupervisor (teamOf s.cur) then 2 else x

/-- Cycles a boundary takes from now: its figure counts from the cycle at which the last device access of the strand to GDDR7 is
performed (file 08 R307). -/
def State.boundaryTime (s : State) (scope n : Nat) : Nat := (s.st.devBy - s.cycle) + boundaryCycles scope n

/-- The publication point of a boundary that begins now: `tail` cycles, those of its renewal, before its end, and after the requests of
the strand that precede it (file 03 R96). -/
def State.pubPoint (s : State) (scope tail : Nat) : Nat :=
  Nat.max (s.cycle + s.boundaryTime scope (s.st.sectors scope) - tail) (s.st.reqsDue + 1)

/-- What a boundary waits for before it begins: a .sys boundary for the strand's PCIe-window accesses (file 03 R93), a supervisor core's
while the home slices move. -/
def State.boundaryWaits (s : State) (scope : Nat) : Bool := (scope = 3 && s.st.pcieOpen) || s.homesMove

/-- An instruction that carries a boundary: it takes effect, its bundle with it, at the publication point; until then a pre-emption
abandons it (file 15 R414). A store that faults is found before; `kept`: the machine without the stores that the instruction discards. -/
def State.atBoundary (s : State) (scope tail : Nat) (effect : State → State) (kept : State → State := id) : State :=
  if s.boundaryWaits scope then s.block .stall else
  match s.st.bnd with
  | some _ => effect s
  | none =>
    match (kept s).publication s.cur scope with
    | (s', some (va, c)) => { s with freeN := s'.freeN }.raise (memFault c va)
    | (s', none) => { s with freeN := s'.freeN }.block (.until ((kept s).pubPoint scope tail))

/-- An instruction whose request leaves the core after a publication (file 03 R102, file 08 R307): it retires, and its request waits in the
strand's context until then (file 15 R414). A store that faults is found at issue (file 14 R501), and so is what `check` finds in the
machine as the publication leaves it. -/
def State.request (s : State) (scope tail : Nat) (check : State → Option TrapRec) (dest : PendDest) (r : Request) : State :=
  if s.boundaryWaits scope then s.block .stall else
  match s.publication s.cur scope with
  | (s', some (va, c)) => { s with freeN := s'.freeN }.raise (memFault c va)
  | (s', none) =>
    let s := { s with freeN := s'.freeN }
    match check s' with
    | some t => s.raise t
    | none =>
      let due := Nat.max (s.cycle + s.boundaryTime scope (s.st.sectors scope) - tail) s.st.reqsDue
      s.setSt (fun st => { st with pend := st.pend ++ [{
        global := false, dest := dest, value := 0, done := false, due := due, pc := s.rs.pc, rep := s.rs.rep,
        req := some r, scope := scope, stores := st.toPublish scope }] })

/-- The core is at no pre-emption point before a cycle (file 15 R412). -/
def State.busyUntil (s : State) (t : Nat) : State :=
  s.updCore (s.coreOf (teamOf s.cur)) (fun K => { K with bundleEnd := Nat.max K.bundleEnd t })

/-- R172, R103: the boundary; no later bundle of the strand issues before it is complete, 4 cycles after its publication point. -/
def execPhase (o : OpN) (s : State) : Result :=
  .next (s.guarded o.g (fun s =>
    s.atBoundary (s.scopeOf o.imm) 4 (fun s =>
      match s.boundary s.cur (s.scopeOf o.imm) with
      | (s', some (va, c)) => { s with freeN := s'.freeN }.raise (memFault c va)
      | (s, none) => ((s.renewFetch s.cur (s.scopeOf o.imm)).holdUntil (s.cycle + 4)).busyUntil (s.cycle + 4))))

/-- R173: the bundle retires, then trap 0x09 is taken at the next issue point. -/
def execTrap (o : OpN) (s : State) : Result :=
  .next (s.guarded o.g (fun s =>
    s.retire.takeLate s.cur 0x09 (BitVec.ofNat 64 o.imm)))

/-- A handler's return as an instruction: the frozen loops act again and nothing else of the bundle's control flow is left. -/
def State.doReturn (s : State) : State :=
  { (s.setSt (fun st => { st with lastPc := st.pc, lastRep := st.rep })).trapReturn s.cur with iss := { s.iss with retired := true } }

/-- R38, R174, R207: TRET outside a handler, or in one of level 1 or 2, is an illegal opcode. -/
def execTret (o : OpN) (s : State) : Result :=
  .next (s.guarded o.g (fun s => if s.rs.tmode && s.rs.level == 0 then s.doReturn else s.raise (illegalOpcode 0 0x0D)))

/-- R38, R174: SRET on a compute core, or outside a handler, is an illegal opcode. -/
def execSret (o : OpN) (s : State) : Result :=
  .next (s.guarded o.g (fun s => if s.rs.tmode && s.rs.level != 0 then s.doReturn else s.raise (illegalOpcode 0 0x0E)))

/-- R175: the strand stops after its bundle retires. -/
def execExit (o : OpN) (s : State) : Result := .next (s.guarded o.g (fun s => s.retire.exitStrand s.cur))

end Sys2Proof.Machine
end

