-- ==== Sys2Proof/Machine/Pending.lean ====
section
/-! DEFINITION. Results that come later (file 03 R93; file 07 R302; file 08 R306; file 15 R413): outstanding loads, atomics and
plinth services of a strand, and the events that complete them. -/

namespace Sys2Proof.Machine

/-- The value a load of `n` bytes gives its register (file 05 R187). -/
def loadValue (n : Nat) (signed : Bool) (x : Nat) : Word :=
  if signed then BitVec.ofInt 64 (sextInt (8 * n) x) else BitVec.ofNat 64 (x % 2 ^ (8 * n))

/-- Write a result to its destination. -/
def Strand.deliver (st : Strand) (p : Pending) (ok : Bool) (v : Nat) : Strand :=
  let w := BitVec.ofNat 64 v
  match p.dest with
  | .a n => if ok then st.setA n w else st
  | .p n => st.setPAll n ok
  | .ap a n => (if ok then st.setA a w else st).setPAll n ok
  | .none => st

/-- Take a pending result out of the list and write it. -/
def Strand.complete (st : Strand) (p : Pending) (v : Nat) : Strand :=
  ({ st with pend := st.pend.erase p }).deliver p p.ok v

/-- The next result of a kind to come: the least due, then the oldest. -/
def Strand.nextPend (st : Strand) (test : Pending → Bool) : Option Pending :=
  (sortBy (fun (p : Pending) => p.due) (st.pend.filter test)).head?

/-- Cycle at which a plinth service answers, 40 cycles and more under load after its request (R302, file 08 R308). -/
def State.serviceDue (s : State) : Nat := s.cycle + 40 + Config.loadDelay s.freeN

/-- A result for the issuing strand that comes at a known cycle. -/
def State.answerAt (s : State) (dest : PendDest) (value due : Nat) (ok : Bool := true) (done : Bool := true) : State :=
  s.setSt (fun st => { st with pend := st.pend ++ [{ global := false, dest := dest, value := value, ok := ok, due := due, done := done }] })

/-- A result of a plinth service for the issuing strand. -/
def State.service (s : State) (dest : PendDest) (value : Nat) (ok : Bool := true) (done : Bool := true) : State :=
  { s.answerAt dest value s.serviceDue ok done with freeN := s.freeN + 1 }

/-- A load or atomic fails (R93): its strand takes the fault, or, parked already, takes it when it is resumed. -/
def State.failAccess (s : State) (k : Nat) (p : Pending) : State :=
  match (s.strand k).run with
  | .exited => s.updStrand k (fun st => { st with pend := st.pend.erase p })
  | .terminated => s.updStrand k (fun st => { st with pend := st.pend.erase p })
  | .parked => s.updStrand k (fun st => { st with pend := st.pend.map (fun q => if q = p then { p with failed := true } else q) })
  | _ => s.faultAccess k p

/-- The completion of an access through a PCIe window brings the value (R93): results that are due before it come first, and an acquiring
atomic renews now and gives its result 4 cycles later (R102, R306). -/
def State.pcieArrive (s : State) (k : Nat) (p : Pending) (value : Nat) : State :=
  let v := (loadValue p.size p.signed value).toNat
  match p.acq with
  | none => s.updStrand k (fun st => (st.landAll (s.cycle - 1)).complete p v)
  | some sc =>
    ((s.updStrand k (fun st => { st with pend := st.pend.map (fun q =>
      if q = p then { p with pcie := false, acq := none, done := true, value := v, due := s.cycle + 4 } else q) })).renewal k sc).renewFetch k sc

/-- A load or atomic result returns from its home (R306). Through a PCIe window the completion brings the value (R93). -/
def execGlobalAccessComplete (strand : Nat) (ok : Bool) (value : Nat) (s : State) : Result :=
  .next (match (s.strand strand).nextPend (fun p => p.global && !p.failed) with
    | none => s
    | some p =>
      let s := { s with cycle := Nat.max s.cycle p.due }
      if !ok then
        (if p.pcie then s else s.countUncor (s.storageOf (s.team (teamOf strand)).asid p.va)).failAccess strand p
      else if p.pcie then s.pcieArrive strand p value
      else s.updStrand strand (fun st => (st.landAll (p.due - 1)).complete p p.value))

/-- An access through a PCIe window passes the port's completion timeout (R93). -/
def execPcieCompletionTimeout (strand : Nat) (s : State) : Result :=
  .next (match (s.strand strand).nextPend (fun p => p.global && p.pcie && !p.failed) with
    | none => s
    | some p => s.failAccess strand p)

end Sys2Proof.Machine
end

