-- ==== Sys2Proof/Machine/Csr.lean ====
section
/-! DEFINITION. System registers, mailboxes, the cycle counter, transom copies and work ranges of the A slot (file 01 R27-R29; file 05
R192-R202; file 16 R436, R437). -/

namespace Sys2Proof.Machine

/-! ### Control and status registers (file 01 R29) -/

def statusOf (st : Strand) : Nat := boolNat st.tmode * 4 + st.level % 4
def Team.quota (T : Team) : Nat := T.xp % 2048 * 2 ^ 17 + T.wp % 2048 * 64 + T.tiles % 64

/-- The value of a CSR; an unassigned number reads zero. -/
def State.csr (s : State) (n : Nat) : Word :=
  let st := s.rs
  match n with
  | 0x00 => BitVec.ofNat 64 (s.coreId s.cur)
  | 0x01 => BitVec.ofNat 64 s.epoch
  | 0x02 => st.wid
  | 0x03 => BitVec.ofNat 64 (s.tm.lh % 2 ^ 32)
  | 0x04 => BitVec.ofNat 64 (statusOf st)
  | 0x05 => st.wnext
  | 0x06 => st.wend
  | 0x08 => st.tepc.zeroExtend 64
  | 0x09 => st.tcause.zeroExtend 64
  | 0x0A => st.tinfo
  | 0x0B => st.trep.zeroExtend 64
  | 0x0C => NMap.get 0 st.tkeep 0
  | 0x0D => NMap.get 0 st.tkeep 1
  | 0x0E => NMap.get 0 st.tkeep 2
  | 0x0F => NMap.get 0 st.tkeep 3
  | 0x10 => st.flags.zeroExtend 64
  | 0x11 => st.trapen.zeroExtend 64
  | 0x12 => BitVec.ofNat 64 s.llcCap
  | 0x13 => BitVec.ofNat 64 s.sliceHash
  | 0x14 => BitVec.ofNat 64 s.tm.quota
  | _ => 0

/-- A write to a CSR (R192): reserved bits are ignored; TEPC keeps bits 55:2, TREP bits 3:0. Other numbers do not decode. -/
def Strand.setCsr (st : Strand) (n : Nat) (v : Word) : Strand :=
  match n with
  | 0x08 => { st with tepc := BitVec.ofNat 56 (v.toNat / 4 * 4) }
  | 0x0B => { st with trep := v.setWidth 4 }
  | 0x0C => { st with tkeep := NMap.set 0 st.tkeep 0 v }
  | 0x0D => { st with tkeep := NMap.set 0 st.tkeep 1 v }
  | 0x0E => { st with tkeep := NMap.set 0 st.tkeep 2 v }
  | 0x0F => { st with tkeep := NMap.set 0 st.tkeep 3 v }
  | 0x10 => { st with flags := v.setWidth 7 }
  | 0x11 => { st with trapen := v.setWidth 7 }
  | _ => st

def execCsrr (o : OpG) (s : State) : Result := .next (s.guarded o.g (fun s => s.setA o.d (s.csr o.a)))
def execCsrw (o : OpG) (s : State) : Result :=
  .next (s.guarded o.g (fun s => s.setSt (fun st => st.setCsr o.d (s.aR o.a))))

/-! ### Mailboxes and the cycle counter (R194-R196) -/

/-- R194: read a mailbox and clear its arrival bit in one step. -/
def execMbxr (o : OpG) (s : State) : Result :=
  .next (s.guarded o.g (fun s =>
    (s.setA o.d (NMap.get 0 s.rs.mbx o.a)).setSt (fun st => { st with arrive := st.arrive &&& ~~~(BitVec.ofNat 16 (2 ^ o.a)) })))

/-- R194, R27: write a strand's mailbox by its descriptor. -/
def execMbxw (o : OpG) (s : State) : Result :=
  .next (s.guarded o.g (fun s => s.mailbox (s.aR o.a).toNat (s.aR o.b)))

/-- R196. -/
def execCyc (o : OpG) (s : State) : Result := .next (s.guarded o.g (fun s => s.setA o.d (BitVec.ofNat 64 s.cycle)))

/-! ### Transom copies (R197) -/

/-- To a branch-target register, after 2 cycles; no fetch starts. -/
def execXmovaB (o : OpG) (s : State) : Result :=
  .next (s.guarded o.g (fun s =>
    (s.transom 2 (.b o.d false) [(s.aR o.a).toNat % 2 ^ 56] 0).setSt (fun st =>
      { st with bwrite := NMap.set 0 st.bwrite o.d st.issues, bfetch := NMap.set [] st.bfetch o.d [] })))

/-- To one register of all eight bays, after 3 cycles, with tag 0x000. -/
def State.transomAll (s : State) (lat n : Nat) (vals : List Nat) (tag : Nat) : State :=
  s.forEach (List.range 8) (fun s b => s.transom lat (.v b n) vals tag)

def execXmovaV (o : OpG) (s : State) : Result :=
  .next (s.guarded o.g (fun s => s.transomAll 3 o.d (List.replicate 16 ((s.aR o.a).toNat % 2 ^ 32)) 0))

/-- A[31:0] into the even lanes and A[63:32] into the odd lanes. -/
def execXmovaPair (o : OpG) (s : State) : Result :=
  .next (s.guarded o.g (fun s =>
    let a := (s.aR o.a).toNat
    s.transomAll 3 o.d ((List.replicate 8 [a % 2 ^ 32, a / 2 ^ 32]).flatten) 0))

/-! ### Work ranges (R198-R202) -/

/-- R198. -/
def execWrange (o : OpG) (s : State) : Result :=
  .next (s.guarded o.g (fun s => s.setSt (fun st => { st with wnext := s.aR o.a, wend := s.aR o.b })))

/-- The strands a steal searches, in order (R200). -/
def State.stealOrder (s : State) (k : Nat) : List Nat :=
  let t := teamOf k
  let T := s.team t
  let L := s.launch T.launch
  let own := (List.range T.nstr).filterMap (fun i => if i = 0 then none else some (4 * t + (strandIdx k + i) % T.nstr))
  let n := (L.hdr.map (·.cores)).getD 1
  let others := sortBy (fun u => ((s.team u).idx + n - T.idx) % n) (L.slots.filter (· != t))
  own ++ (others.map s.members).flatten

/-- A steal (R200): the upper half of the first victim with at least two indices. -/
def State.steal (s : State) (k : Nat) : State × Option (Nat × Nat) :=
  match (s.stealOrder k).find? (fun v => (s.strand v).left ≥ 2) with
  | none => (s, none)
  | some v =>
    let (s, lo, hi) := s.splitRange v
    (s, some (lo, hi))

/-- Take the oldest portion of the launch's forced pool whole; the cluster enters its dwell of DWELL ms (R201, file 16 R436). -/
def State.takePool (s : State) (k : Nat) : State × Option (Nat × Nat) :=
  let l := (s.team (teamOf k)).launch
  match (s.launch l).pool with
  | [] => (s, none)
  | p :: rest =>
    ((s.updLaunch l (fun L => { L with pool := rest })).updCluster (clusterOf (s.coreOf (teamOf k)))
      (fun K => { K with dwellEnd := some (s.cycle + s.dwell * 1900000) }), some p)

/-- Where a WGET with an empty range gets its next range (R199, R437). -/
def State.findWork (s : State) (k : Nat) : State × Option (Nat × Nat) :=
  if !(s.cluster (clusterOf (s.coreOf (teamOf k)))).hot && !(s.launch (s.team (teamOf k)).launch).pool.isEmpty then s.takePool k
  else match s.steal k with
    | (s, some r) => (s, some r)
    | (s, none) => s.takePool k

/-- The cycle at which a WGET that searches completes: no later than 320 cycles (R199, R154). -/
def State.searchDue (s : State) : Nat := s.cycle + 2 + Config.loadDelay s.freeN % 319

/-- R199: from the strand's own range at once; otherwise the search's result comes later. -/
def execWget (o : OpG) (s : State) : Result :=
  .next (s.guarded o.g (fun s =>
    if s.rs.wnext < s.rs.wend then
      ((s.setA o.d s.rs.wnext).setPAll o.a true).setSt (fun st => { st with wnext := s.rs.wnext + 1 })
    else match s.findWork s.cur with
      | (s, some (lo, hi)) =>
        { ((s.setSt (fun st => { st with wnext := BitVec.ofNat 64 (lo + 1), wend := BitVec.ofNat 64 hi })).answerAt (.ap o.d o.a) lo
            s.searchDue) with freeN := s.freeN + 1 }
      | (s, none) => { s.answerAt (.ap o.d o.a) 0 s.searchDue false with freeN := s.freeN + 1 }))

end Sys2Proof.Machine
end

