-- ==== Sys2Proof/Machine/Float.lean ====
section
/-! DEFINITION. Floating-point values as exact rationals, their formats, rounding, and the arithmetic of FP32 and BF16 (file 02
R48-R54, R79; file 05 R203-R206; file 06 R221-R225). -/

namespace Sys2Proof.Machine

/-- A float operand or an exact result: a NaN (signalling or quiet), an infinity, or the signed rational ± n / d. -/
inductive FVal where
  | nan (signalling : Bool)
  | inf (neg : Bool)
  | num (neg : Bool) (n d : Nat)
deriving DecidableEq, Repr

/-! ### Formats with infinities (R48, R52) -/

/-- Exponent and fraction widths of a format and its canonical NaN (R50). -/
structure FFormat where
  eb : Nat
  mb : Nat
  cnan : Nat
deriving DecidableEq, Repr

def fp32 : FFormat := { eb := 8, mb := 23, cnan := 0x7FC00000 }
def bf16 : FFormat := { eb := 8, mb := 7, cnan := 0x7FC0 }
def fp16 : FFormat := { eb := 5, mb := 10, cnan := 0x7E00 }
def f8b : FFormat := { eb := 5, mb := 2, cnan := 0x7E }

def FFormat.bias (f : FFormat) : Nat := 2 ^ (f.eb - 1) - 1
/-- Exponent of the smallest normal value. -/
def FFormat.emin (f : FFormat) : Int := 1 - (f.bias : Int)
/-- The code of +∞. -/
def FFormat.inf (f : FFormat) : Nat := (2 ^ f.eb - 1) * 2 ^ f.mb
def FFormat.signBit (f : FFormat) : Nat := 2 ^ (f.eb + f.mb)

/-- n · 2^e as a fraction. -/
def scaled (n : Nat) (e : Int) : Nat × Nat := if e ≥ 0 then (n * 2 ^ e.toNat, 1) else (n, 2 ^ (-e).toNat)

/-- The value of a finite code with exponent field `e` and fraction `m`, for fraction width `mb` and bias `b` (R48, R52). -/
def finiteVal (neg : Bool) (e m mb b : Nat) : FVal :=
  let r := if e = 0 then scaled m (1 - (b : Int) - mb) else scaled (2 ^ mb + m) ((e : Int) - b - mb)
  .num neg r.1 r.2

/-- The value of a code (R48, R50). -/
def FFormat.decode (f : FFormat) (x : Nat) : FVal :=
  let neg := bit x (f.eb + f.mb)
  let e := bits x f.mb f.eb
  let m := bits x 0 f.mb
  if e = 2 ^ f.eb - 1 then (if m = 0 then .inf neg else .nan (!bit m (f.mb - 1)))
  else finiteVal neg e m f.mb f.bias

/-! ### Rounding (R49, `rne`) -/

/-- A quotient rounded to the nearest integer, ties to even, and whether it was exact. -/
def rneDiv (n d : Nat) : Nat × Bool :=
  let k := n / d
  let r := n % d
  (if 2 * r > d || (2 * r = d && k % 2 = 1) then k + 1 else k, r == 0)

/-- The exponent of the leading bit of n / d, for n > 0. -/
def floorLog2 (n d : Nat) : Int :=
  let l : Int := (Nat.log2 n : Int) - Nat.log2 d
  let ge := if l ≥ 0 then decide (d * 2 ^ l.toNat ≤ n) else decide (d ≤ n * 2 ^ (-l).toNat)
  if ge then l else l - 1

/-- A positive rational rounded to `mb` fraction bits with least normal exponent `emin`: its code without sign, before any overflow,
and whether it is exact. -/
def roundMag (mb : Nat) (emin : Int) (n d : Nat) : Nat × Bool :=
  let e := max (floorLog2 n d) emin
  let q := e - mb
  let r := if q ≥ 0 then rneDiv n (d * 2 ^ q.toNat) else rneDiv (n * 2 ^ (-q).toNat) d
  ((e - emin).toNat * 2 ^ mb + r.1, r.2)

/-- Flags of a rounding that gave a code below or at the smallest normal: UF and NX (R79). -/
def roundFlags (mb code : Nat) (exact : Bool) : Flags := flagIf (!exact) fNX ||| flagIf (!exact && code < 2 ^ mb) fUF

/-- Round a value to a format: its code and flags (R49, R50, R54, R79). -/
def FFormat.round (f : FFormat) (v : FVal) : Nat × Flags :=
  match v with
  | .nan s => (f.cnan, flagIf s fNV)
  | .inf neg => ((if neg then f.signBit else 0) + f.inf, 0)
  | .num neg n d =>
    let sg := if neg then f.signBit else 0
    if n = 0 then (sg, 0) else
    let r := roundMag f.mb f.emin n d
    if r.1 ≥ f.inf then (sg + f.inf, fOF ||| fNX) else (sg + r.1, roundFlags f.mb r.1 r.2)

/-! ### Exact arithmetic (R50) -/

/-- Two fractions over one denominator. -/
def align (n1 d1 n2 d2 : Nat) : Nat × Nat × Nat :=
  if d1 % d2 = 0 then (n1, n2 * (d1 / d2), d1)
  else if d2 % d1 = 0 then (n1 * (d2 / d1), n2, d2)
  else (n1 * d2, n2 * d1, d1 * d2)

def FVal.isNan : FVal → Bool
  | .nan _ => true
  | _ => false
def FVal.isSnan : FVal → Bool
  | .nan s => s
  | _ => false
def FVal.isInf : FVal → Bool
  | .inf _ => true
  | _ => false
def FVal.isZero : FVal → Bool
  | .num _ n _ => n == 0
  | _ => false
def FVal.finite : FVal → Bool
  | .num _ _ _ => true
  | _ => false
def FVal.isNeg : FVal → Bool
  | .num s _ _ => s
  | .inf s => s
  | .nan _ => false
def FVal.neg : FVal → FVal
  | .num s n d => .num (!s) n d
  | .inf s => .inf (!s)
  | .nan s => .nan s

/-- NV for a signalling operand. -/
def nanFlags (l : List FVal) : Flags := flagIf (l.any FVal.isSnan) fNV

/-- The exact sum; ∞ − ∞ is invalid; a zero sum is −0 only of two zeros that are both −0. -/
def FVal.add (a b : FVal) : FVal × Flags :=
  match a, b with
  | .num s n d, .num t m e =>
    let (x, y, c) := align n d m e
    (if s = t then .num s (x + y) c else if x = y then .num false 0 1
     else if x > y then .num s (x - y) c else .num t (y - x) c, 0)
  | .inf s, .inf t => if s = t then (.inf s, 0) else (.nan false, fNV)
  | .inf s, .num _ _ _ => (.inf s, 0)
  | .num _ _ _, .inf t => (.inf t, 0)
  | a, b => (.nan false, nanFlags [a, b])

def FVal.sub (a b : FVal) : FVal × Flags := a.add b.neg

/-- The exact product; 0 × ∞ is invalid. -/
def FVal.mul (a b : FVal) : FVal × Flags :=
  match a, b with
  | .num s n d, .num t m e => (.num (s ^^ t) (n * m) (d * e), 0)
  | .inf s, .inf t => (.inf (s ^^ t), 0)
  | .inf s, .num t m _ => if m = 0 then (.nan false, fNV) else (.inf (s ^^ t), 0)
  | .num s n _, .inf t => if n = 0 then (.nan false, fNV) else (.inf (s ^^ t), 0)
  | a, b => (.nan false, nanFlags [a, b])

/-- The exact quotient, with the special cases of IEEE 754. -/
def FVal.div (a b : FVal) : FVal × Flags :=
  match a, b with
  | .num s n d, .num t m e =>
    if m = 0 then (if n = 0 then (.nan false, fNV) else (.inf (s ^^ t), fDZ)) else (.num (s ^^ t) (n * e) (d * m), 0)
  | .inf _, .inf _ => (.nan false, fNV)
  | .inf s, .num t _ _ => (.inf (s ^^ t), 0)
  | .num s _ _, .inf t => (.num (s ^^ t) 0 1, 0)
  | a, b => (.nan false, nanFlags [a, b])

/-- a × b + c, exact. 0 × ∞ is invalid whatever c is (file 05 R204). -/
def FVal.fma (a b c : FVal) : FVal × Flags :=
  let (p, f) := a.mul b
  let (r, g) := p.add c
  (r, f ||| g)

/-- Round the exact result of an operation. -/
def FFormat.result (f : FFormat) (r : FVal × Flags) : Nat × Flags :=
  let (c, g) := f.round r.1
  (c, r.2 ||| g)

def FFormat.addC (f : FFormat) (a b : Nat) : Nat × Flags := f.result ((f.decode a).add (f.decode b))
def FFormat.subC (f : FFormat) (a b : Nat) : Nat × Flags := f.result ((f.decode a).sub (f.decode b))
def FFormat.mulC (f : FFormat) (a b : Nat) : Nat × Flags := f.result ((f.decode a).mul (f.decode b))
def FFormat.fmaC (f : FFormat) (a b c : Nat) : Nat × Flags := f.result ((f.decode a).fma (f.decode b) (f.decode c))

/-! ### Comparison (file 05 R206; file 06 R222) -/

/-- Whether a < b for numbers and infinities; the zeros are equal. -/
def FVal.lt (a b : FVal) : Bool :=
  match a, b with
  | .num s n d, .num t m e =>
    let (x, y, _) := align n d m e
    let sx : Int := if s then -(x : Int) else x
    let sy : Int := if t then -(y : Int) else y
    sx < sy
  | .inf s, .inf t => s && !t
  | .inf s, .num _ _ _ => s
  | .num _ _ _, .inf t => !t
  | _, _ => false

def FVal.eqv (a b : FVal) : Bool := !a.isNan && !b.isNan && !a.lt b && !b.lt a

/-- The float conditions 0 .eq, 1 .ne, 2 .lt, 3 .le, 4 .un, 5 .ord, and NV (R206). -/
def floatCond (cc : Nat) (a b : FVal) : Bool × Flags :=
  let un := a.isNan || b.isNan
  let c := match cc with
    | 0 => a.eqv b
    | 1 => !a.eqv b
    | 2 => a.lt b
    | 3 => a.lt b || a.eqv b
    | 4 => un
    | _ => !un
  (c, flagIf (a.isSnan || b.isSnan || (un && (cc == 2 || cc == 3))) fNV)

/-- The lesser of two FP32 codes under R222 (`greater`: the greater); −0 lies below +0. -/
def minMax (greater : Bool) (a b : Nat) : Nat × Flags :=
  let x := fp32.decode a
  let y := fp32.decode b
  let less := if x.isZero && y.isZero then x.isNeg && !y.isNeg else x.lt y
  let r := if x.isNan && y.isNan then fp32.cnan else if x.isNan then b else if y.isNan then a
    else if less == greater then b else a
  (r, nanFlags [x, y])

/-! ### Conversions between floats and integers (R51) -/

/-- A float rounded to an integer and saturated to [lo, hi]. -/
def FVal.toInt (v : FVal) (lo hi : Int) : Int × Flags :=
  match v with
  | .nan _ => (0, fNV)
  | .inf s => (if s then lo else hi, fSAT ||| fNX)
  | .num s n d =>
    let (k, exact) := rneDiv n d
    let i : Int := if s then -(k : Int) else k
    if i < lo then (lo, fSAT ||| fNX) else if i > hi then (hi, fSAT ||| fNX) else (i, flagIf (!exact) fNX)

def ofInt (i : Int) : FVal := .num (decide (i < 0)) i.natAbs 1

/-- A code of one format rounded to another; `rne` (R49). -/
def convert (from_ into : FFormat) (x : Nat) : Nat × Flags := into.round (from_.decode x)

/-! ### Reciprocal, square root, exponential and logarithm (R225) -/

/-- The integer square root, bit by bit from bit `k - 1`. -/
def isqrt (n : Nat) : Nat → Nat → Nat
  | 0, acc => acc
  | k + 1, acc => isqrt n k (if (acc + 2 ^ k) * (acc + 2 ^ k) ≤ n then acc + 2 ^ k else acc)

/-- Fixed-point scale of the series below: 2^320. -/
def fixOne : Nat := 2 ^ 320

/-- Sum of z^(2i+1) / (2i+1) from the term `t` on, in fixed point: the inverse hyperbolic tangent. -/
def atanhSum (zz t i : Nat) : Nat → Nat
  | 0 => 0
  | k + 1 => t / (2 * i + 1) + atanhSum zz (t * zz / fixOne) (i + 1) k

/-- ln(n / d) for 1 ≤ n / d < 2, in fixed point: 2 artanh((n - d) / (n + d)). -/
def lnFix (n d : Nat) : Nat :=
  let z := (n - d) * fixOne / (n + d)
  2 * atanhSum (z * z / fixOne) z 0 110

def ln2Fix : Nat := lnFix 2 1

/-- e^x - from the term `t` on - for 0 ≤ x < 1 in fixed point. -/
def expSum (x t i : Nat) : Nat → Nat
  | 0 => 0
  | k + 1 => t + expSum x (t * x / fixOne / (i + 1)) (i + 1) k

/-- 2^(n / d) for 0 ≤ n / d < 1, in fixed point. -/
def exp2Fix (n d : Nat) : Nat := expSum (n * ln2Fix / d) fixOne 0 80

/-- 2^k as a fraction times a fixed-point number. -/
def scaleFix (x : Nat) (k : Int) : FVal :=
  if k ≥ 0 then .num false (x * 2 ^ k.toNat) fixOne else .num false x (fixOne * 2 ^ (-k).toNat)

/-- A result that is irrational: rounded from its fixed-point value, and inexact. -/
def inexact (r : Nat × Flags) : Nat × Flags := (r.1, r.2 ||| fNX)

/-- VRCP (R225). -/
def rcpC (x : Nat) : Nat × Flags :=
  match fp32.decode x with
  | .num s n d => if n = 0 then fp32.result (.inf s, fDZ) else fp32.round (.num s d n)
  | .inf s => fp32.round (.num s 0 1)
  | v => fp32.round v

/-- √(n / d) to 200 further bits: twice the root plus one where it is inexact, over 2^201. -/
def sqrtFrac (n d : Nat) : Nat × Nat :=
  let m := n * 2 ^ 400 / d
  let k := isqrt m 320 0
  (2 * k + (if k * k * d = n * 2 ^ 400 then 0 else 1), 2 ^ 201)

/-- VRSQ (R225). -/
def rsqC (x : Nat) : Nat × Flags :=
  match fp32.decode x with
  | .num s n d =>
    if n = 0 then fp32.result (.inf s, fDZ) else if s then (fp32.cnan, fNV)
    else let r := sqrtFrac d n; fp32.round (.num false r.1 r.2)
  | .inf s => if s then (fp32.cnan, fNV) else fp32.round (.num false 0 1)
  | v => fp32.round v

/-- 2^v (R225): the integer part as a power, the rest by its series; beyond ±400 the result overflows or vanishes. -/
def exp2V (v : FVal) : Nat × Flags :=
  match v with
  | .num s n d =>
    let k := Nat.min (n / d) 400
    let r := n % d
    if r = 0 then fp32.round (if s then .num false 1 (2 ^ k) else .num false (2 ^ k) 1)
    else if s then inexact (fp32.round (scaleFix (exp2Fix (d - r) d) (-(k : Int) - 1)))
    else inexact (fp32.round (scaleFix (exp2Fix r d) k))
  | .inf s => if s then (0, 0) else fp32.round (.inf false)
  | v => fp32.round v

def exp2C (x : Nat) : Nat × Flags := exp2V (fp32.decode x)

/-- VLOG2 (R225). -/
def log2C (x : Nat) : Nat × Flags :=
  match fp32.decode x with
  | .num s n d =>
    if n = 0 then fp32.result (.inf true, fDZ) else if s then (fp32.cnan, fNV) else
    let e := floorLog2 n d
    let (p, q) := if e ≥ 0 then (n, d * 2 ^ e.toNat) else (n * 2 ^ (-e).toNat, d)
    if p = q then fp32.round (ofInt e)
    else
      let m : Int := e * (fixOne : Nat) + ((lnFix p q * fixOne / ln2Fix : Nat) : Int)
      inexact (fp32.round (.num (decide (m < 0)) m.natAbs fixOne))
  | .inf s => if s then (fp32.cnan, fNV) else fp32.round (.inf false)
  | v => fp32.round v

end Sys2Proof.Machine
end

