-- ==== Sys2Proof/Machine/Convert.lean ====
section
/-! DEFINITION. Element formats, block scales, codebooks, rotations and conversions (file 02 R45-R71, R497). -/

namespace Sys2Proof.Machine

/-! ### Descriptors (R45, R56, R65, R71) -/

def dFmt (d : Nat) : Nat := bits d 0 4
def dSgeo (d : Nat) : Nat := bits d 4 3
def dTag (d : Nat) : Nat := bits d 7 10
def dCb (d : Nat) : Nat := bits d 17 12
def mkDesc (fmt sgeo tag cb : Nat) : Nat := fmt % 16 + sgeo % 8 * 16 + tag % 1024 * 128 + cb % 4096 * 131072

/-- Bits per element (R45). -/
def elemBits (fmt : Nat) : Nat := if fmt = 1 || fmt = 8 then 32 else if fmt = 2 || fmt = 3 then 16 else if fmt = 7 then 4 else 8
/-- Elements per pane (R45). -/
def paneElems (fmt : Nat) : Nat := 32768 / elemBits fmt

def isNarrow (fmt : Nat) : Bool := 4 ≤ fmt && fmt ≤ 7
def isWide (fmt : Nat) : Bool := 1 ≤ fmt && fmt ≤ 3

/-- L of a scale geometry, 0 for none (R56). -/
def scaleLen (sgeo : Nat) : Nat := if 1 ≤ sgeo && sgeo ≤ 5 then 2 ^ (sgeo + 3) else 0
/-- A legal format with a legal scale geometry (R46, R56). -/
def legalDesc (d : Nat) : Bool :=
  dFmt d ≤ 8 && (dSgeo d == 0 || (isNarrow (dFmt d) && dSgeo d ≤ 5 && !(dFmt d == 7 && dSgeo d == 1)))
/-- Scale blocks of a pane (R57). -/
def scaleBlocks (d : Nat) : Nat := if scaleLen (dSgeo d) = 0 then 0 else paneElems (dFmt d) / scaleLen (dSgeo d)

/-- B of a tag, 0 for an unrotated one; tags are equal as R65 says. -/
def tagBlock (t : Nat) : Nat := if t % 4 = 0 then 0 else 4 * 4 ^ (t % 4)
def tagEq (t u : Nat) : Bool := (t % 4 == 0 && u % 4 == 0) || t % 1024 == u % 1024

/-- The conversion copies bits and scales unchanged (R58, R70). -/
def sameDesc (a b : Nat) : Bool :=
  dFmt a == dFmt b && tagEq (dTag a) (dTag b) && dSgeo a == dSgeo b && (dFmt a != 7 || dCb a == dCb b)

/-- A conversion path exists between two descriptors (R70). -/
def convertible (a b : Nat) : Bool :=
  legalDesc a && legalDesc b &&
    (sameDesc a b || ((isNarrow (dFmt a) || isWide (dFmt a) || dFmt a == 8) && isNarrow (dFmt b)) ||
      ((isNarrow (dFmt a) || isWide (dFmt a)) && isWide (dFmt b)))

/-! ### Codebooks and sign vectors (R61, R63, R66) -/

/-- The sixteen BF16 entries of a codebook. -/
def State.codebook (s : State) (n : Nat) : List Nat := NMap.getList 0 s.books (16 * n) 16

/-- One step of the generator. -/
def signStep (h : Word) : Word :=
  let h := h ^^^ (h <<< 13)
  let h := h ^^^ (h >>> 7)
  h ^^^ (h <<< 17)

/-- The next `n` signs: true for −1. -/
def signsFrom (h : Word) : Nat → List Bool
  | 0 => []
  | n + 1 => (signStep h).msb :: signsFrom (signStep h) n

/-- The sign vector of a tag. -/
def State.signs (s : State) (t : Nat) : List Bool :=
  let h := NMap.get 0 s.seeds (t / 4 % 256) ^^^ (BitVec.ofNat 64 (t % 4) <<< 60)
  signsFrom (if h = 0 then 0x9E3779B97F4A7C15 else h) (tagBlock t)

/-! ### Decoding and encoding -/

/-- A value rounded to FP32. -/
def r32 (v : FVal × Flags) : FVal × Flags :=
  let (c, f) := fp32.result v
  (fp32.decode c, f)

/-- The code value of an element (R52, R55, R61) or of a wide format. -/
def codeValue (fmt : Nat) (book : List Nat) (c : Nat) : FVal :=
  match fmt with
  | 1 => fp32.decode c
  | 2 => bf16.decode c
  | 3 => fp16.decode c
  | 4 => if c = 0x80 then .nan false else finiteVal (bit c 7) (bits c 3 4) (bits c 0 3) 3 7
  | 5 => f8b.decode c
  | 6 => ofInt (sextInt 8 c)
  | 7 => bf16.decode (book.getD (c % 16) 0)
  | _ => ofInt (sextInt 32 c)

/-- A code value times its block scale (R497). -/
def timesScale (v sc : FVal) : FVal × Flags :=
  match v, sc with
  | .inf s, .num t _ _ => (.inf (s ^^ t), 0)
  | v, sc => v.mul sc

/-- The value of an element with its scale, exact. -/
def decodeElem (fmt : Nat) (book : List Nat) (scale : Nat) (c : Nat) : FVal × Flags :=
  if isNarrow fmt then timesScale (codeValue fmt book c) (bf16.decode scale) else (codeValue fmt book c, 0)

/-- R53. -/
def encodeF8a (v : FVal) : Nat × Flags :=
  match v with
  | .nan s => (0x80, flagIf s fNV)
  | .inf s => (if s then 0xFF else 0x7F, fSAT ||| fNX)
  | .num s n d =>
    if n > 480 * d then (if s then 0xFF else 0x7F, fSAT ||| fNX)
    else if n = 0 then (0, 0)
    else
      let r := roundMag 3 (-6) n d
      (if r.1 = 0 then 0 else if s then 128 + r.1 else r.1, roundFlags 3 r.1 r.2)

/-- R60. -/
def encodeI8 (v : FVal) : Nat × Flags :=
  match v with
  | .nan _ => (0, fNV)
  | v =>
    let (i, f) := v.toInt (-127) 127
    ((BitVec.ofInt 8 i).toNat, f)

/-- Magnitude comparison of differences: |v − a| < |v − b|. -/
def nearer (v a b : FVal) : Bool :=
  let abs := fun (x : FVal) => match x with
    | .num _ n d => FVal.num false n d
    | x => x
  (abs (v.sub a).1).lt (abs (v.sub b).1)

/-- The entries of a codebook that are finite, with their indices. -/
def finiteEntries (book : List Nat) : List (Nat × FVal) :=
  ((List.range 16).zip (book.map bf16.decode)).filter (fun p => p.2.finite)

/-- The first entry of a list that no other beats. -/
def bestEntry (better : FVal → FVal → Bool) : List (Nat × FVal) → Option (Nat × FVal)
  | [] => none
  | p :: r =>
    match bestEntry better r with
    | none => some p
    | some q => if better q.2 p.2 then some q else some p

/-- R62. -/
def encodeC4 (book : List Nat) (v : FVal) : Nat × Flags :=
  let es := finiteEntries book
  let pick := fun (f : FVal → FVal → Bool) => ((bestEntry f es).map (·.1)).getD 0
  if es.isEmpty then (0, fNV) else
  match v with
  | .nan _ => (0, fNV)
  | .inf s => (if s then pick (fun a b => a.lt b) else pick (fun a b => b.lt a), fSAT ||| fNX)
  | v =>
    match bestEntry (nearer v) es with
    | some (i, e) => (i, flagIf (!(v.eqv e)) fNX)
    | none => (0, fNV)

/-- Encode a value in a format (R49, R53, R54, R60, R62). -/
def encodeElem (fmt : Nat) (book : List Nat) (v : FVal) : Nat × Flags :=
  match fmt with
  | 1 => fp32.round v
  | 2 => bf16.round v
  | 3 => fp16.round v
  | 4 => encodeF8a v
  | 5 => f8b.round v
  | 6 => encodeI8 v
  | _ => encodeC4 book v

/-! ### Lists of values with flags -/

/-- Map an operation over a list, with the union of the flags. -/
def mapFlags {α β : Type} (f : α → β × Flags) (l : List α) : List β × Flags :=
  let r := l.map f
  (r.map (·.1), orFlags (r.map (·.2)))

/-- Cut a list into pieces of `n`. -/
def chunks {α : Type} (n : Nat) (l : List α) : List (List α) :=
  (List.range ((l.length + n - 1) / n)).map (fun i => (l.drop (n * i)).take n)

/-! ### Rotation (R64, R67-R69) -/

/-- One stage of a transform at stride `h`: sums and differences of the pairs (i, i + h). -/
def stage {α : Type} (add sub : α → α → α × Flags) (h : Nat) (l : List α) : List α × Flags :=
  let parts := (chunks (2 * h) l).map (fun c =>
    let ps := (c.take h).zip (c.drop h)
    let (a, f) := mapFlags (fun (p : α × α) => add p.1 p.2) ps
    let (b, g) := mapFlags (fun (p : α × α) => sub p.1 p.2) ps
    (a ++ b, f ||| g))
  ((parts.map (·.1)).flatten, orFlags (parts.map (·.2)))

/-- The stages of strides 1, 2, 4, … -/
def stages {α : Type} (add sub : α → α → α × Flags) : Nat → Nat → List α → List α × Flags
  | 0, _, l => (l, 0)
  | n + 1, h, l =>
    let (l, f) := stage add sub h l
    let (l, g) := stages add sub n (2 * h) l
    (l, f ||| g)

/-- log2 B and μ = log4 B of a block size. -/
def blockLog (b : Nat) : Nat := if b = 16 then 4 else if b = 64 then 6 else 8

def applySigns (sg : List Bool) (l : List FVal) : List FVal := (sg.zip l).map (fun p => if p.1 then p.2.neg else p.2)

/-- 2^-μ H x of one block, each sum and the final product rounded to FP32. -/
def hadamard (b : Nat) (l : List FVal) : List FVal × Flags :=
  let (l, f) := stages (fun a b => r32 (a.add b)) (fun a b => r32 (a.sub b)) (blockLog b) 1 l
  let (l, g) := mapFlags (fun v => r32 (v.mul (.num false 1 (2 ^ (blockLog b / 2))))) l
  (l, f ||| g)

/-- The float rotation of one block (R67). -/
def rotateBlock (sg : List Bool) (l : List FVal) : List FVal × Flags := hadamard sg.length (applySigns sg l)

/-- The inverse rotation of one block (R69). -/
def unrotateBlock (sg : List Bool) (l : List FVal) : List FVal × Flags :=
  let (l, f) := hadamard sg.length l
  (applySigns sg l, f)

/-- Apply a block operation to every whole block of a list. -/
def overBlocks {α : Type} (b : Nat) (f : List α → List α × Flags) (l : List α) : List α × Flags :=
  let parts := (chunks b l).map (fun c => if c.length = b then f c else (c, 0))
  ((parts.map (·.1)).flatten, orFlags (parts.map (·.2)))

/-- Undo the rotation U and apply the rotation T, unless the tags are equal (R47, R70). -/
def State.rerotate (s : State) (u t : Nat) (l : List FVal) : List FVal × Flags :=
  if tagEq u t then (l, 0) else
  let (l, f) := if tagBlock u = 0 then (l, 0) else overBlocks (tagBlock u) (unrotateBlock (s.signs u)) l
  let (l, g) := if tagBlock t = 0 then (l, 0) else overBlocks (tagBlock t) (rotateBlock (s.signs t)) l
  (l, f ||| g)

/-- The integer rotation of one block of I8 codes (R68). -/
def rotateI8 (sg : List Bool) (l : List Nat) : List Nat × Flags :=
  let (y, f) := mapFlags (fun (p : Bool × Nat) =>
    let v := sextInt 8 p.2
    let v' := if v = -128 then -127 else v
    (if p.1 then -v' else v', flagIf (v == -128) fSAT)) (sg.zip l)
  let (y, _) := stages (fun a b => (a + b, 0)) (fun a b => (a - b, 0)) (blockLog sg.length) 1 y
  let (q, g) := mapFlags (fun (v : Int) =>
    let (k, exact) := rneDiv v.natAbs (2 ^ (blockLog sg.length / 2))
    let c := Nat.min k 127
    let z : Int := if v < 0 then -(c : Int) else c
    ((BitVec.ofInt 8 z).toNat, flagIf (!exact) fNX ||| flagIf (decide (k > 127)) fRCLIP)) y
  (q, f ||| g)

/-! ### Scales (R59) -/

/-- The largest magnitude among the finite values of a list, as ± n / d with sign cleared. -/
def amax (l : List FVal) : FVal :=
  l.foldl (fun m v => match v with
    | .num _ n d => if m.lt (.num false n d) then .num false n d else m
    | _ => m) (.num false 0 1)

/-- QMAX of a narrow format. -/
def qmax (fmt : Nat) (book : List Nat) : FVal :=
  match fmt with
  | 4 => .num false 480 1
  | 5 => .num false 57344 1
  | 6 => .num false 127 1
  | _ => amax ((finiteEntries book).map (·.2))

/-- The BF16 code of 1.0. -/
def bf16One : Nat := 0x3F80

/-- The computed scale of a block (R59, R62): its BF16 code. -/
def blockScale (fmt : Nat) (book : List Nat) (l : List FVal) : Nat × Flags :=
  let m := qmax fmt book
  if m.isZero then (bf16One, 0) else
  let a := amax l
  if a.isZero then (0, 0) else
  let (c, f) := bf16.result (a.div m)
  if c = 0 then (1, f ||| fUF) else (c, f)

/-- The loop of R59: encode y / σ for a computed σ. -/
def encodeScaled (fmt : Nat) (book : List Nat) (scale : Nat) (y : FVal) : Nat × Flags :=
  let sc := bf16.decode scale
  let v := if sc.isZero && y.finite then .num false 0 1 else
    match y with
    | .nan s => .nan s
    | .inf s => .inf s
    | y => (y.div sc).1
  encodeElem fmt book v

/-- Scale and encode the blocks of a list under a destination descriptor: codes and scales. -/
def State.narrowList (s : State) (dst : Nat) (l : List FVal) : List Nat × List Nat × Flags :=
  let book := s.codebook (dCb dst)
  let fmt := dFmt dst
  if scaleLen (dSgeo dst) = 0 then
    let (c, f) := mapFlags (encodeElem fmt book) l
    (c, [], f)
  else
    let parts := (chunks (scaleLen (dSgeo dst)) l).map (fun b =>
      let (sc, f) := blockScale fmt book b
      let (c, g) := mapFlags (encodeScaled fmt book sc) b
      (c, sc, f ||| g))
    ((parts.map (·.1)).flatten, parts.map (·.2.1), orFlags (parts.map (·.2.2)))

/-! ### The conversion paths (R70) -/

/-- The FP32 values of a run of elements under a descriptor, with its scales. -/
def State.widenList (s : State) (src : Nat) (codes scales : List Nat) : List FVal × Flags :=
  let book := s.codebook (dCb src)
  let len := scaleLen (dSgeo src)
  if isNarrow (dFmt src) then
    mapFlags (fun (p : Nat × Nat) => r32 (decodeElem (dFmt src) book (if len = 0 then bf16One else scales.getD (p.1 / len) 0) p.2))
      ((List.range codes.length).zip codes)
  else if dFmt src = 8 then mapFlags (fun c => r32 (codeValue 8 book c, 0)) codes
  else (codes.map (codeValue (dFmt src) book), 0)

/-- Convert a run of elements that starts at a block boundary: codes, scales and flags. -/
def State.convertList (s : State) (src dst : Nat) (codes scales : List Nat) : List Nat × List Nat × Flags :=
  if sameDesc src dst then (codes, scales, 0)
  else if dFmt src = 6 && dFmt dst = 6 && tagBlock (dTag src) = 0 && dSgeo src = dSgeo dst && tagBlock (dTag dst) != 0 then
    let (c, f) := overBlocks (tagBlock (dTag dst)) (rotateI8 (s.signs (dTag dst))) codes
    (c, scales, f)
  else
    let (x, f) := s.widenList src codes scales
    let (y, g) := s.rerotate (dTag src) (dTag dst) x
    if isNarrow (dFmt dst) then
      let (c, sc, h) := s.narrowList dst y
      (c, sc, f ||| g ||| h)
    else
      let (c, h) := mapFlags (encodeElem (dFmt dst) []) y
      (c, [], f ||| g ||| h)

/-! ### Elements in bytes (R6, R61) -/

/-- The element codes in a run of bytes. -/
def elemsOf (fmt : Nat) (bs : List Byte) : List Nat :=
  if fmt = 7 then (bs.map (fun b => [b.toNat % 16, b.toNat / 16])).flatten
  else (chunks (elemBits fmt / 8) bs).map leNat

/-- The bytes of a run of element codes. -/
def bytesOf (fmt : Nat) (l : List Nat) : List Byte :=
  if fmt = 7 then (chunks 2 l).map (fun p => BitVec.ofNat 8 (p.getD 0 0 + 16 * p.getD 1 0))
  else (l.map (leBytes (elemBits fmt / 8))).flatten

end Sys2Proof.Machine
end

