-- ==== Sys2Proof/Machine/Scratch.lean ====
section
/-! DEFINITION. Accesses of thread instructions to panes (file 03 R89, R108-R110; file 05 R189; file 06 R233; file 07 R247): the checks
made at issue, and the order against the M queue and a swap. -/

namespace Sys2Proof.Machine

/-! ### What a queued M operation reads and writes (file 07 R249) -/

/-- Panes of a run of a tile's 4,096 elements in a format (R255, R256). -/
def runLen (fmt : Nat) : Nat := if fmt = 1 || fmt = 8 then 4 else if fmt = 2 || fmt = 3 then 2 else 1

def Team.descOf (T : Team) (item : Nat) : Nat := NMap.get 0 T.desc item

/-- The X pane and row of output row `i` in the index latch (R253). -/
def latchPane (latch : NMap Nat) (i : Nat) : Nat := NMap.get 0 latch i / 64
def latchRow (latch : NMap Nat) (i : Nat) : Nat := NMap.get 0 latch i % 64

/-- `n` pane items of a buffer from pane `p`. -/
def paneRun (buf p n : Nat) : List Nat := (List.range n).map (fun i => paneItem buf (p + i))

/-- The team as an M operation sees it: its open panes under their descriptors at its issue (file 02 R72). -/
def Team.seenBy (T : Team) (o : MOp) : Team := { T with desc := o.descs.foldl (fun m p => NMap.set 0 m p.1 p.2) T.desc }

/-- Items (file 01 R26 names: tiles, W panes, X panes) that an M operation reads. -/
def MOp.reads (T : Team) (o : MOp) : List Nat :=
  let T := T.seenBy o
  match o.op with
  | .mma m => o.tile :: (paneRun 1 o.w (m.kp + 1) ++ paneRun 2 o.x (m.kp + 1))
  | .mmaz m => paneRun 1 o.w (m.kp + 1) ++ paneRun 2 o.x (m.kp + 1)
  | .mmag m =>
    o.tile :: (paneRun 1 o.w (m.kp + 1) ++
      ((List.range 64).map (fun i => paneRun 2 (latchPane o.latch i) (m.kp + 1))).flatten)
  | .mld _ => paneRun 2 o.x (runLen (dFmt (T.descOf (paneItem 2 o.x))))
  | .mst _ => [o.tile]
  | .mtrn m => [m.ta]
  | .mrowmax m => [o.tile, m.ta]
  | .mrowsum m => [o.tile, m.ta]
  | .mscale m => [m.ta, m.tb]
  | .maddt m => [m.ta, m.tb]
  | _ => []

/-- Items that an M operation writes. -/
def MOp.writes (o : MOp) : List Nat :=
  match o.op with
  | .mst m => paneRun 2 o.x (runLen m.fmt)
  | .mzero m => (List.range (m.cnt + 1)).map (fun i => o.tile + i)
  | _ => [o.tile]

/-- The M operations of a team that have not completed. -/
def State.mOps (s : State) (t : Nat) : List MOp :=
  ((s.cores.map (fun p => (match p.2.mrun with | some r => [r.op] | none => []) ++ p.2.mq)).flatten).filter
    (fun o => teamOf o.strand == t)

/-- An earlier M operation still has to write, or (for a write) to read, an item (R89). -/
def State.mHolds (s : State) (t item : Nat) (write : Bool) : Bool :=
  (s.mOps t).any (fun o => o.writes.contains item || (write && (o.reads (s.team t)).contains item))

/-- An item of a resumed or incoming team that is not yet in its place (file 15 R418, R421). -/
def Team.absent (T : Team) (item : Nat) : Bool := T.toFill.contains item || T.hold.any (fun h => h.1 == item)

/-- The same for a command or an M operation that issued on some cycle: the work that was outstanding at a swap goes on while the items
depart (R415, R416); what the resumed team issues waits until they are back (R421). -/
def Team.away (T : Team) (issued item : Nat) : Bool :=
  (T.toFill.contains item && (!T.toSpill.contains item || decide (T.since < issued))) || T.hold.any (fun h => h.1 == item)

/-! ### Checks at issue -/

/-- How a check of an access ends. -/
inductive Check where
  | ok
  | trap (r : TrapRec)
  | wait (w : Wait)
deriving DecidableEq, Repr

/-- The trap of lower place in the order of R35; the first of equal ones. -/
def firstTrap : List Check → Option TrapRec
  | [] => none
  | .trap r :: l =>
    match firstTrap l with
    | some q => some (if q.prio < r.prio then q else r)
    | none => some r
  | _ :: l => firstTrap l

def firstWait : List Check → Option Wait
  | [] => none
  | .wait w :: _ => some w
  | _ :: l => firstWait l

/-- The effect where every check passes; a trap comes before a block. -/
def State.checked (s : State) (l : List Check) (effect : State → State) : State :=
  match firstTrap l with
  | some r => s.raise r
  | none =>
    match firstWait l with
    | some w => s.block w
    | none => effect s

/-- Traps of a pane or tile operand (R26, R189): buffer 0 for W, 1 for X. -/
def paneQuota (buf pane : Nat) : TrapRec :=
  { prio := 61, code := 0x0C, tinfo := BitVec.ofNat 64 ((buf - 1) * 4096 + pane % 4096) }
def tileQuota (tile : Nat) : TrapRec := { prio := 60, code := 0x07, tinfo := BitVec.ofNat 64 tile }
def shutterTrap (pane : Nat) : TrapRec := { prio := 70, code := 0x06, tinfo := BitVec.ofNat 64 pane }
/-- The fault of a pane that a failed ring pair left closed (R289): port and step tag. -/
def ringTrap (port tag : Nat) : TrapRec :=
  { prio := 70, code := 0x43, tinfo := BitVec.ofNat 64 (tag % 2 ^ 32 * 2 ^ 32 + port) }

/-- Panes of a buffer in a team's quota. -/
def Team.panes (T : Team) (buf : Nat) : Nat := if buf = 1 then T.wp else T.xp

/-- A thread's access to a pane under its shutter (R110): one that a ring command holds traps as one that SHUT closed does. -/
def State.shutterCheck (s : State) (buf pane : Nat) : Check :=
  let item := paneItem buf pane
  match s.rt.shutter item with
  | .t => .ok
  | .ringFailed p t => if s.rt.awaits item then .wait (.pane item) else .trap (ringTrap p t)
  | _ => if s.rt.awaits item then .wait (.pane item) else .trap (shutterTrap pane)

/-- An M operation of an earlier bundle still has to write, or (for a write) to read, an item (R89). -/
def State.mEarlier (s : State) (item : Nat) (write : Bool) : Bool :=
  (s.iss.mops.getD (s.mOps (teamOf s.cur))).any (fun o => o.writes.contains item || (write && (o.reads s.rt).contains item))

/-- Whether the M queue or a swap still holds a pane. -/
def State.holdCheck (s : State) (item : Nat) (write : Bool) : Check :=
  if s.rt.absent item then .wait (.place item) else if s.mEarlier item write then .wait .stall else .ok

/-- Every check of a thread access of a pane (R233). -/
def State.paneCheck (s : State) (buf pane : Nat) (write : Bool) : List Check :=
  if pane ≥ s.rt.panes buf then [.trap (paneQuota buf pane)]
  else [s.shutterCheck buf pane, s.holdCheck (paneItem buf pane) write]

/-- Every check of an access to an X byte address with an alignment (R189, R233). -/
def State.xCheck (s : State) (ea align : Nat) (write : Bool) : List Check :=
  (if ea ≥ 4194304 then [.trap (paneQuota 2 (ea / 4096))] else s.paneCheck 2 (ea / 4096) write) ++
    (if ea % align != 0 then [.trap (misaligned (BitVec.ofNat 64 ea))] else [])

/-! ### Bytes of a buffer -/

/-- Key of byte `a` of a buffer in `Team.pane`. -/
def byteKey (buf a : Nat) : Nat := 4194304 * buf + a

def Team.bytesAt (T : Team) (buf a n : Nat) : List Byte := NMap.getList 0 T.pane (byteKey buf a) n
def Team.setBytes (T : Team) (buf a : Nat) (bs : List Byte) : Team := { T with pane := NMap.setList 0 T.pane (byteKey buf a) bs }
def Team.marginAt (T : Team) (item j n : Nat) : List Byte := NMap.getList 0 T.margin (512 * item + j) n
def Team.setMargin (T : Team) (item j : Nat) (bs : List Byte) : Team := { T with margin := NMap.setList 0 T.margin (512 * item + j) bs }
def Team.setDesc (T : Team) (item d : Nat) : Team := { T with desc := NMap.set 0 T.desc item d }

/-! ### LDX and STX (file 05 R187, R189) -/

/-- Bytes and sign extension of a size code (R187). -/
def sizeOf (code : Nat) : Nat := 2 ^ (code / 2)
def signedOf (code : Nat) : Bool := code % 2 == 0

/-- aA + sext(IMM32). -/
def State.effAddr (s : State) (o : OpL) : Word := s.aR o.a + simm32 o.imm

def execLdx (o : OpL) (s : State) : Result :=
  .next (s.guarded o.g (fun s =>
    let ea := (s.effAddr o).toNat
    let n := sizeOf o.b
    s.checked (s.xCheck ea n false) (fun s => s.setA o.d (loadValue n (signedOf o.b) (leNat (s.rt.bytesAt 2 ea n))))))

def execStx (o : OpL) (s : State) : Result :=
  .next (s.guarded o.g (fun s =>
    let ea := (s.effAddr o).toNat
    let n := sizeOf o.b
    s.checked (s.xCheck ea n true) (fun s => s.setTm (fun T => T.setBytes 2 ea (leBytes n (s.aR o.d).toNat)))))

end Sys2Proof.Machine
end

