-- ==== Sys2Proof/Machine/Scalar.lean ====
section
/-! DEFINITION. The integer instructions of the A slot (file 05 R178-R186): arithmetic, division, logic, shifts, bit fields,
compares, selects, immediates; and the values they compute. -/

namespace Sys2Proof.Machine

/-- An A-slot instruction of two register sources: guard, operation, destination (R150). -/
def State.alu (s : State) (o : OpG) (f : Word → Word → Word) : Result :=
  .next (s.guarded o.g (fun s => s.setA o.d (f (s.aR o.a) (s.aR o.b))))

/-- One that also reads its destination. -/
def State.alu3 (s : State) (o : OpG) (f : Word → Word → Word → Word) : Result :=
  .next (s.guarded o.g (fun s => s.setA o.d (f (s.aR o.d) (s.aR o.a) (s.aR o.b))))

/-! ### Arithmetic (R178) -/

/-- Bits 127:64 of the product of the sign-extended operands. -/
def mulHigh (a b : Word) : Word := ((a.signExtend 128) * (b.signExtend 128)).extractLsb' 64 64
/-- Bits 127:64 of the product of the zero-extended operands. -/
def mulHighU (a b : Word) : Word := ((a.zeroExtend 128) * (b.zeroExtend 128)).extractLsb' 64 64

def execAdd (o : OpG) (s : State) : Result := s.alu o (fun a b => a + b)
def execSub (o : OpG) (s : State) : Result := s.alu o (fun a b => a - b)
def execMul (o : OpG) (s : State) : Result := s.alu o (fun a b => a * b)
def execMulh (o : OpG) (s : State) : Result := s.alu o mulHigh
def execMulhu (o : OpG) (s : State) : Result := s.alu o mulHighU
def execMin (o : OpG) (s : State) : Result := s.alu o (fun a b => if a.slt b then a else b)
def execMax (o : OpG) (s : State) : Result := s.alu o (fun a b => if b.slt a then a else b)
def execMinu (o : OpG) (s : State) : Result := s.alu o (fun a b => if a < b then a else b)
def execMaxu (o : OpG) (s : State) : Result := s.alu o (fun a b => if b < a then a else b)
def execAbs (o : OpG) (s : State) : Result := s.alu o (fun a _ => if a.slt 0 then 0 - a else a)
def execAddi (o : OpL) (s : State) : Result := .next (s.guarded o.g (fun s => s.setA o.d (s.aR o.a + simm32 o.imm)))

/-! ### Division (R179) -/

/-- Quotients: all ones by zero; -2^63 / -1 = -2^63. -/
def quotS (a b : Word) : Word := if b = 0 then BitVec.allOnes 64 else a.sdiv b
def quotU (a b : Word) : Word := if b = 0 then BitVec.allOnes 64 else a / b
/-- Remainders: the dividend by zero; the sign of the dividend. -/
def remS (a b : Word) : Word := if b = 0 then a else a.srem b
def remU (a b : Word) : Word := if b = 0 then a else a % b

/-- A division: DZ is set by a zero divisor (R179). -/
def State.division (s : State) (o : OpG) (f : Word → Word → Word) : Result :=
  .next (s.guarded o.g (fun s =>
    s.numeric (flagIf (s.aR o.b == 0) fDZ) (fun s => s.setA o.d (f (s.aR o.a) (s.aR o.b)))))

def execDiv (o : OpG) (s : State) : Result := s.division o quotS
def execDivu (o : OpG) (s : State) : Result := s.division o quotU
def execRem (o : OpG) (s : State) : Result := s.division o remS
def execRemu (o : OpG) (s : State) : Result := s.division o remU

/-! ### Logic and shifts (R180) -/

/-- The shift count B[5:0]. -/
def shamt (b : Word) : Nat := b.toNat % 64

def execAnd (o : OpG) (s : State) : Result := s.alu o (fun a b => a &&& b)
def execOr (o : OpG) (s : State) : Result := s.alu o (fun a b => a ||| b)
def execXor (o : OpG) (s : State) : Result := s.alu o (fun a b => a ^^^ b)
def execAndn (o : OpG) (s : State) : Result := s.alu o (fun a b => a &&& ~~~b)
def execOrn (o : OpG) (s : State) : Result := s.alu o (fun a b => a ||| ~~~b)
def execShl (o : OpG) (s : State) : Result := s.alu o (fun a b => a <<< shamt b)
def execShr (o : OpG) (s : State) : Result := s.alu o (fun a b => a >>> shamt b)
def execSar (o : OpG) (s : State) : Result := s.alu o (fun a b => a.sshiftRight (shamt b))
def execRotl (o : OpG) (s : State) : Result := s.alu o (fun a b => a.rotateLeft (shamt b))

/-- A shift by the B field. -/
def State.shiftImm (s : State) (o : OpG) (f : Word → Nat → Word) : Result :=
  .next (s.guarded o.g (fun s => s.setA o.d (f (s.aR o.a) (o.b % 64))))

def execShli (o : OpG) (s : State) : Result := s.shiftImm o (fun a n => a <<< n)
def execShri (o : OpG) (s : State) : Result := s.shiftImm o (fun a n => a >>> n)
def execSari (o : OpG) (s : State) : Result := s.shiftImm o (fun a n => a.sshiftRight n)

/-! ### Counts (R181) -/

/-- Leading zeros of an `n`-bit number. -/
def leadingZeros (n x : Nat) : Nat := if x = 0 then n else n - 1 - Nat.log2 x
/-- Trailing zeros, counted up to `n`. -/
def trailingZeros (n x : Nat) : Nat := ((List.range n).find? (bit x)).getD n
/-- Bits of an `n`-bit number that are 1. -/
def popCount (n x : Nat) : Nat := ((List.range n).filter (bit x)).length
/-- The 64 bits in the opposite order. -/
def bitReverse (x : Nat) : Nat := (List.range 64).foldl (fun m i => if bit x i then m + 2 ^ (63 - i) else m) 0

def execClz (o : OpG) (s : State) : Result := s.alu o (fun a _ => BitVec.ofNat 64 (leadingZeros 64 a.toNat))
def execCtz (o : OpG) (s : State) : Result := s.alu o (fun a _ => BitVec.ofNat 64 (trailingZeros 64 a.toNat))
def execPopc (o : OpG) (s : State) : Result := s.alu o (fun a _ => BitVec.ofNat 64 (popCount 64 a.toNat))
def execBrev (o : OpG) (s : State) : Result := s.alu o (fun a _ => BitVec.ofNat 64 (bitReverse a.toNat))

/-! ### Bit fields and funnel shifts (R182, R183), for a word of `n` bits -/

/-- The effective width w' = min(w, n - o). -/
def fieldWidth (n off w : Nat) : Nat := Nat.min w (n - off)

/-- The signed and the unsigned field of `x`. -/
def fieldS (n x off w : Nat) : Nat :=
  let w' := fieldWidth n off w
  if w' = 0 then 0 else (BitVec.ofInt n (sextInt w' (bits x off w'))).toNat
def fieldU (n x off w : Nat) : Nat := bits x off (fieldWidth n off w)
/-- `old` with the field replaced by the low bits of `x`. -/
def fieldInsert (n old x off w : Nat) : Nat :=
  let w' := fieldWidth n off w
  old - bits old off w' * 2 ^ off + bits x 0 w' * 2 ^ off

/-- The high half of (hi : lo) shifted left, and the low half of it shifted right. -/
def funnelLeft (n hi lo sh : Nat) : Nat := (hi * 2 ^ n + lo) * 2 ^ sh / 2 ^ n % 2 ^ n
def funnelRight (n hi lo sh : Nat) : Nat := (hi * 2 ^ n + lo) / 2 ^ sh % 2 ^ n

/-- Offset B[5:0] and width B[14:8] (R182). -/
def bfOff (b : Word) : Nat := bits b.toNat 0 6
def bfWidth (b : Word) : Nat := bits b.toNat 8 7

def execBfx (o : OpG) (s : State) : Result :=
  s.alu o (fun a b => BitVec.ofNat 64 (fieldS 64 a.toNat (bfOff b) (bfWidth b)))
def execBfxu (o : OpG) (s : State) : Result :=
  s.alu o (fun a b => BitVec.ofNat 64 (fieldU 64 a.toNat (bfOff b) (bfWidth b)))
def execBfi (o : OpG) (s : State) : Result :=
  s.alu3 o (fun d a b => BitVec.ofNat 64 (fieldInsert 64 d.toNat a.toNat (bfOff b) (bfWidth b)))
def execFshl (o : OpG) (s : State) : Result :=
  s.alu3 o (fun d a b => BitVec.ofNat 64 (funnelLeft 64 d.toNat a.toNat (shamt b)))
def execFshr (o : OpG) (s : State) : Result :=
  s.alu3 o (fun d a b => BitVec.ofNat 64 (funnelRight 64 d.toNat a.toNat (shamt b)))

/-! ### Compares, selects and immediates (R184-R186) -/

/-- The integer conditions (R184). -/
def condition (cc : Nat) (a b : Word) : Bool :=
  match cc with
  | 0 => a == b
  | 1 => a != b
  | 2 => a.slt b
  | 3 => a.sle b
  | 4 => a < b
  | 5 => a ≤ b
  | 6 => b.slt a
  | 7 => b.sle a
  | 8 => b < a
  | 9 => b ≤ a
  | _ => (a &&& b) != 0

/-- Write a condition and its complement to a predicate pair (R184). -/
def State.setPair (s : State) (pt pf : Nat) (c : Bool) : State := (s.setPAll pt c).setPAll pf (!c)

def execCmp (o : OpL) (s : State) : Result :=
  .next (s.guarded o.g (fun s => s.setPair o.cmpPT o.cmpPF (condition o.cmpCC (s.aR o.a) (s.aR o.b))))

/-- IMM14, zero-extended for the unsigned conditions and .tst, else sign-extended (R184). -/
def imm14 (cc imm : Nat) : Word :=
  let x := BitVec.ofNat 14 (bits imm 18 14)
  if cc = 4 || cc = 5 || 8 ≤ cc then x.zeroExtend 64 else x.signExtend 64

def execCmpi (o : OpL) (s : State) : Result :=
  .next (s.guarded o.g (fun s => s.setPair o.cmpPT o.cmpPF (condition o.cmpCC (s.aR o.a) (imm14 o.cmpCC o.imm))))

/-- R185. -/
def execSel (o : OpL) (s : State) : Result :=
  .next (s.guarded o.g (fun s => s.setA o.d (if s.pS o.imm then s.aR o.a else s.aR o.b)))

/-- R186. -/
def execMovi (o : OpI) (s : State) : Result := .next (s.guarded o.g (fun s => s.setA o.d (simm12 o.imm)))

/-- R186: H = 0 the sign-extended immediate, H = 1 the high half. -/
def execMovl (o : OpL) (s : State) : Result :=
  .next (s.guarded o.g (fun s =>
    s.setA o.d (if o.b = 1 then (BitVec.ofNat 32 o.imm ++ (s.aR o.d).extractLsb' 0 32 : BitVec 64) else simm32 o.imm)))

end Sys2Proof.Machine
end

