-- ==== Sys2Proof/Machine/ScalarFloat.lean ====
section
/-! DEFINITION. Scalar floating point of the A slot (file 05 R203-R206). -/

namespace Sys2Proof.Machine

/-- Bits 31:0 of an A register as an FP32 code (R203). -/
def State.fR (s : State) (n : Nat) : Nat := (s.aR n).toNat % 2 ^ 32

/-- An instruction whose result and flags are computed from its sources. -/
def State.floatOp (s : State) (o : OpG) (r : State → Nat × Flags) : Result :=
  .next (s.guarded o.g (fun s => s.numeric (r s).2 (fun s' => s'.setA o.d (BitVec.ofNat 64 (r s).1))))

def execFadd (o : OpG) (s : State) : Result := s.floatOp o (fun s => fp32.addC (s.fR o.a) (s.fR o.b))
def execFsub (o : OpG) (s : State) : Result := s.floatOp o (fun s => fp32.subC (s.fR o.a) (s.fR o.b))
def execFmul (o : OpG) (s : State) : Result := s.floatOp o (fun s => fp32.mulC (s.fR o.a) (s.fR o.b))
def execFfma (o : OpG) (s : State) : Result := s.floatOp o (fun s => fp32.fmaC (s.fR o.a) (s.fR o.b) (s.fR o.d))

/-- A float code rounded to an integer of `n` bits, as its two's complement (R51). -/
def toIntCode (n : Nat) (signed : Bool) (x : Nat) : Nat × Flags :=
  let lo : Int := if signed then -(2 ^ (n - 1) : Nat) else 0
  let hi : Int := if signed then (2 ^ (n - 1) : Nat) - 1 else (2 ^ n : Nat) - 1
  let (i, f) := (fp32.decode x).toInt lo hi
  ((BitVec.ofInt n i).toNat, f)

/-- The conversions of FCVT (R205). -/
def fcvtCode (code : Nat) (a : Nat) : Nat × Flags :=
  let w := a % 2 ^ 32
  let h := a % 2 ^ 16
  match code with
  | 0 => fp32.round (ofInt (sextInt 64 a))
  | 1 => fp32.round (ofInt a)
  | 2 => toIntCode 64 true w
  | 3 => toIntCode 64 false w
  | 4 =>
    let (c, f) := toIntCode 32 true w
    ((BitVec.ofInt 64 (sextInt 32 c)).toNat, f)
  | 5 => fp32.round (ofInt (sextInt 32 w))
  | 6 => convert fp32 bf16 w
  | 7 => convert bf16 fp32 h
  | 8 => convert fp32 fp16 w
  | _ => convert fp16 fp32 h

def execFcvt (o : OpG) (s : State) : Result := s.floatOp o (fun s => fcvtCode o.b (s.aR o.a).toNat)

def execFcmp (o : OpL) (s : State) : Result :=
  .next (s.guarded o.g (fun s =>
    let (c, f) := floatCond o.cmpCC (fp32.decode (s.fR o.a)) (fp32.decode (s.fR o.b))
    s.numeric f (fun s => s.setPair o.cmpPT o.cmpPF c)))

end Sys2Proof.Machine
end

