-- ==== Sys2Proof/Machine/Vector.lean ====
section
/-! DEFINITION. Integer vector instructions, vector compares and selects, packed and dot products (file 06 R208-R220). -/

namespace Sys2Proof.Machine

/-! ### Lane-wise operations (R209, R210) -/

/-- Write the active lanes of a register with the values of a lane function; the active lanes' flags are combined, and the tag is
0x000 (R73, R209, R210). -/
def State.lanewise (s : State) (bay g d : Nat) (f : Nat → Nat × Flags) : Result :=
  .next (
    let act := s.active g bay
    let rs := (List.range 16).map f
    let fl := orFlags ((List.range 16).map (fun l => if act l then ((rs[l]?).map (·.2)).getD 0 else 0))
    s.numeric fl (fun s => s.setLanes bay d 0 act (rs.map (fun r => BitVec.ofNat 32 r.1))))

/-- A lane function of A and B. -/
def State.vop2 (s : State) (o : OpV) (f : Lane → Lane → Lane) : Result :=
  s.lanewise o.bay o.g o.d (fun l => ((f (s.vR o.bay o.a l) (s.vR o.bay o.b l)).toNat, 0))

/-- A lane function of the old destination, A and B. -/
def State.vop3 (s : State) (o : OpV) (f : Lane → Lane → Lane → Lane) : Result :=
  s.lanewise o.bay o.g o.d (fun l => ((f (s.vR o.bay o.d l) (s.vR o.bay o.a l) (s.vR o.bay o.b l)).toNat, 0))

/-! ### Integer arithmetic and logic (R213) -/

/-- B.lane[4:0]. -/
def vsh (b : Lane) : Nat := b.toNat % 32

def laneMulh (a b : Lane) : Lane := ((a.signExtend 64) * (b.signExtend 64)).extractLsb' 32 32
def laneMulhu (a b : Lane) : Lane := ((a.zeroExtend 64) * (b.zeroExtend 64)).extractLsb' 32 32

def execVadd (o : OpV) (s : State) : Result := s.vop2 o (fun a b => a + b)
def execVsub (o : OpV) (s : State) : Result := s.vop2 o (fun a b => a - b)
def execVmul (o : OpV) (s : State) : Result := s.vop2 o (fun a b => a * b)
def execVmulh (o : OpV) (s : State) : Result := s.vop2 o laneMulh
def execVmulhu (o : OpV) (s : State) : Result := s.vop2 o laneMulhu
def execVmad (o : OpV) (s : State) : Result := s.vop3 o (fun d a b => a * b + d)
def execVmin (o : OpV) (s : State) : Result := s.vop2 o (fun a b => if a.slt b then a else b)
def execVmax (o : OpV) (s : State) : Result := s.vop2 o (fun a b => if b.slt a then a else b)
def execVminu (o : OpV) (s : State) : Result := s.vop2 o (fun a b => if a < b then a else b)
def execVmaxu (o : OpV) (s : State) : Result := s.vop2 o (fun a b => if b < a then a else b)
def execVabs (o : OpV) (s : State) : Result := s.vop2 o (fun a _ => if a.slt 0 then 0 - a else a)
def execVand (o : OpV) (s : State) : Result := s.vop2 o (fun a b => a &&& b)
def execVor (o : OpV) (s : State) : Result := s.vop2 o (fun a b => a ||| b)
def execVxor (o : OpV) (s : State) : Result := s.vop2 o (fun a b => a ^^^ b)
def execVandn (o : OpV) (s : State) : Result := s.vop2 o (fun a b => a &&& ~~~b)
def execVshl (o : OpV) (s : State) : Result := s.vop2 o (fun a b => a <<< vsh b)
def execVshr (o : OpV) (s : State) : Result := s.vop2 o (fun a b => a >>> vsh b)
def execVsar (o : OpV) (s : State) : Result := s.vop2 o (fun a b => a.sshiftRight (vsh b))
def execVclz (o : OpV) (s : State) : Result := s.vop2 o (fun a _ => BitVec.ofNat 32 (leadingZeros 32 a.toNat))
def execVpopc (o : OpV) (s : State) : Result := s.vop2 o (fun a _ => BitVec.ofNat 32 (popCount 32 a.toNat))

/-! ### Bit fields and funnel shifts (R214) -/

/-- Offset B[4:0] and width B[13:8]. -/
def vbfOff (b : Lane) : Nat := bits b.toNat 0 5
def vbfWidth (b : Lane) : Nat := bits b.toNat 8 6

def execVbfx (o : OpV) (s : State) : Result :=
  s.vop2 o (fun a b => BitVec.ofNat 32 (fieldS 32 a.toNat (vbfOff b) (vbfWidth b)))
def execVbfxu (o : OpV) (s : State) : Result :=
  s.vop2 o (fun a b => BitVec.ofNat 32 (fieldU 32 a.toNat (vbfOff b) (vbfWidth b)))
def execVbfi (o : OpV) (s : State) : Result :=
  s.vop3 o (fun d a b => BitVec.ofNat 32 (fieldInsert 32 d.toNat a.toNat (vbfOff b) (vbfWidth b)))
def execVfshl (o : OpV) (s : State) : Result :=
  s.vop3 o (fun d a b => BitVec.ofNat 32 (funnelLeft 32 d.toNat a.toNat (vsh b)))
def execVfshr (o : OpV) (s : State) : Result :=
  s.vop3 o (fun d a b => BitVec.ofNat 32 (funnelRight 32 d.toNat a.toNat (vsh b)))

/-- R215. -/
def execVmovi (o : OpVI) (s : State) : Result :=
  s.lanewise o.bay o.g o.d (fun _ => (((BitVec.ofNat 12 o.imm).signExtend 32).toNat, 0))

/-! ### Compares and selects (R216, R217) -/

/-- The lane bits of a bay. -/
def bayMask (bay : Nat) : BitVec 128 := BitVec.ofNat 128 (0xFFFF * 2 ^ (16 * bay))

/-- A number whose bit `l` of the bay is set where `f l` holds. -/
def bayBits (bay : Nat) (f : Nat → Bool) : BitVec 128 :=
  BitVec.ofNat 128 (((List.range 16).map (fun l => if f l then 2 ^ (16 * bay + l) else 0)).foldl (· + ·) 0)

/-- Write a lane condition and its complement to the bay's lanes of two predicates. -/
def State.setBayPair (s : State) (o : OpP) (f : Nat → Bool) : State :=
  (s.setP o.pt none (bayMask o.bay) (bayBits o.bay f)).setP o.pf none (bayMask o.bay) (bayBits o.bay (fun l => !f l))

/-- The conditions of VCMP and VCMPI: 0 eq, 1 ne, 2 lt, 3 le, 4 ltu, 5 leu. -/
def laneCond (cc : Nat) (a b : Lane) : Bool :=
  match cc with
  | 0 => a == b
  | 1 => a != b
  | 2 => a.slt b
  | 3 => a.sle b
  | 4 => a < b
  | _ => a ≤ b

def execVcmp (o : OpP) (s : State) : Result :=
  .next (s.setBayPair o (fun l => laneCond o.cc (s.vR o.bay o.a l) (s.vR o.bay o.b l)))

/-- IMM6, zero-extended for .ltu and .leu, else sign-extended. -/
def imm6 (cc b : Nat) : Lane := if 4 ≤ cc then (BitVec.ofNat 6 b).zeroExtend 32 else (BitVec.ofNat 6 b).signExtend 32

def execVcmpi (o : OpP) (s : State) : Result :=
  .next (s.setBayPair o (fun l => laneCond o.cc (s.vR o.bay o.a l) (imm6 o.cc o.b)))

def execVfcmp (o : OpP) (s : State) : Result :=
  .next (
    let c := fun (l : Nat) => floatCond o.cc (fp32.decode (s.vR o.bay o.a l).toNat) (fp32.decode (s.vR o.bay o.b l).toNat)
    s.numeric (orFlags ((List.range 16).map (fun l => (c l).2))) (fun s => s.setBayPair o (fun l => (c l).1)))

/-- VSEL has no guard: its predicate number stands in the guard field. -/
def execVsel (o : OpV) (s : State) : Result :=
  .next (s.setLanes o.bay o.d 0 (fun _ => true)
    ((List.range 16).map (fun l => if s.pLane o.g o.bay l then s.vR o.bay o.a l else s.vR o.bay o.b l)))

/-! ### Packed integers and dot products (R218-R220) -/

/-- An integer clamped to a range, with SAT. -/
def satInt (lo hi x : Int) : Int × Flags := if x < lo then (lo, fSAT) else if x > hi then (hi, fSAT) else (x, 0)

/-- Both halves of a lane. -/
def packedSat (f : Int → Int → Int) (a b : Nat) : Nat × Flags :=
  let h := fun (i : Nat) => satInt (-32768) 32767 (f (sextInt 16 (bits a (16 * i) 16)) (sextInt 16 (bits b (16 * i) 16)))
  ((BitVec.ofInt 16 (h 0).1).toNat + 65536 * (BitVec.ofInt 16 (h 1).1).toNat, (h 0).2 ||| (h 1).2)

/-- A lane function of A and B with flags. -/
def State.vflag2 (s : State) (o : OpV) (f : Nat → Nat → Nat × Flags) : Result :=
  s.lanewise o.bay o.g o.d (fun l => f (s.vR o.bay o.a l).toNat (s.vR o.bay o.b l).toNat)

def execVaddsat (o : OpV) (s : State) : Result := s.vflag2 o (packedSat (· + ·))
def execVsubsat (o : OpV) (s : State) : Result := s.vflag2 o (packedSat (· - ·))

/-- TINFO of a tag mismatch (R74). -/
def tagTrap (reg : Bool) (opa opb cause taga tagb : Nat) : TrapRec :=
  { prio := 90, code := 0x05,
    tinfo := BitVec.ofNat 64 ((if reg then 2 ^ 63 else 0) + opb % 2048 * 2 ^ 41 + opa % 2048 * 2 ^ 30 + cause % 4 * 2 ^ 20 +
      tagb % 1024 * 1024 + taga % 1024) }

/-- The causes of R74 that depend on tags, for a K range of `k` elements that starts at element 0. -/
def tagCause (k taga tagb : Nat) : Option Nat :=
  if !tagEq taga tagb then some 0
  else if tagBlock taga > k || tagBlock tagb > k then some 1
  else none

/-- The signed products of the `n`-bit fields of two lanes, summed. -/
def dotSum (n a b : Nat) : Int :=
  (List.range (32 / n)).foldl (fun t j => t + sextInt n (bits a (n * j) n) * sextInt n (bits b (n * j) n)) 0

/-- A dot product under guard `g` with fields of `n` bits (R219, R220). -/
def State.dot (s : State) (o : OpV) (g n : Nat) (sat : Bool) : Result :=
  if !s.anyActive g o.bay then .next s else
  let ta := s.vTagR o.bay o.a
  let tb := s.vTagR o.bay o.b
  match tagCause (16 * (32 / n)) ta tb with
  | some c => .next (s.raise (tagTrap true (64 * o.bay + o.a) (64 * o.bay + o.b) c ta tb))
  | none =>
    s.lanewise o.bay g o.d (fun l =>
      let t := sextInt 32 (s.vR o.bay o.d l).toNat + dotSum n (s.vR o.bay o.a l).toNat (s.vR o.bay o.b l).toNat
      if sat then
        let (x, f) := satInt (-2147483648) 2147483647 t
        ((BitVec.ofInt 32 x).toNat, f)
      else ((BitVec.ofInt 32 t).toNat, 0))

def execVdot4 (o : OpV) (s : State) : Result := s.dot o o.g 8 false
def execVdot4s (o : OpV) (s : State) : Result := s.dot o o.g 8 true
/-- Bit 24 of the word, bit 6 of the guard field, selects `.sat`. -/
def execVdot2 (o : OpV) (s : State) : Result := s.dot o (o.g % 64) 16 (bit o.g 6)

end Sys2Proof.Machine
end

