-- ==== Sys2Proof/Machine/VectorFloat.lean ====
section
/-! DEFINITION. Floating-point vector instructions (file 06 R221-R225). -/

namespace Sys2Proof.Machine

/-- A lane function of the old destination, A and B with flags. -/
def State.vflag3 (s : State) (o : OpV) (f : Nat → Nat → Nat → Nat × Flags) : Result :=
  s.lanewise o.bay o.g o.d (fun l => f (s.vR o.bay o.d l).toNat (s.vR o.bay o.a l).toNat (s.vR o.bay o.b l).toNat)

def execVfadd (o : OpV) (s : State) : Result := s.vflag2 o fp32.addC
def execVfsub (o : OpV) (s : State) : Result := s.vflag2 o fp32.subC
def execVfmul (o : OpV) (s : State) : Result := s.vflag2 o fp32.mulC
def execVfma (o : OpV) (s : State) : Result := s.vflag3 o (fun d a b => fp32.fmaC a b d)
def execVfmin (o : OpV) (s : State) : Result := s.vflag2 o (minMax false)
def execVfmax (o : OpV) (s : State) : Result := s.vflag2 o (minMax true)

/-- A sign operation; a NaN gives the canonical NaN (R221). -/
def signOp (f : Nat → Nat) (a : Nat) : Nat × Flags :=
  match fp32.decode a with
  | .nan s => (fp32.cnan, flagIf s fNV)
  | _ => (f a, 0)

def execVfabs (o : OpV) (s : State) : Result := s.vflag2 o (fun a _ => signOp (fun a => a % 2 ^ 31) a)
def execVfneg (o : OpV) (s : State) : Result := s.vflag2 o (fun a _ => signOp (fun a => if bit a 31 then a - 2 ^ 31 else a + 2 ^ 31) a)

/-- R223: both BF16 elements of a lane. -/
def bfmaLane (d a b : Nat) : Nat × Flags :=
  let e := fun (i : Nat) => bf16.fmaC (bits a (16 * i) 16) (bits b (16 * i) 16) (bits d (16 * i) 16)
  ((e 0).1 + 65536 * (e 1).1, (e 0).2 ||| (e 1).2)

def execVbfma (o : OpV) (s : State) : Result := s.vflag3 o bfmaLane

/-- A 16-bit result in the low or the high half of a lane, the other half kept (R224). -/
def halfInto (high : Bool) (d : Nat) (r : Nat × Flags) : Nat × Flags :=
  (if high then d % 65536 + 65536 * r.1 else d / 65536 * 65536 + r.1, r.2)

/-- The conversions of VFCVT (R224). -/
def vfcvtCode (code d a : Nat) : Nat × Flags :=
  match code with
  | 0 => fp32.round (ofInt (sextInt 32 a))
  | 1 => fp32.round (ofInt a)
  | 2 => toIntCode 32 true a
  | 3 => toIntCode 32 false a
  | 4 => halfInto false d (convert fp32 bf16 a)
  | 5 => halfInto true d (convert fp32 bf16 a)
  | 6 => convert bf16 fp32 (a % 65536)
  | 7 => convert bf16 fp32 (a / 65536)
  | 8 => halfInto false d (convert fp32 fp16 a)
  | 9 => halfInto true d (convert fp32 fp16 a)
  | 10 => convert fp16 fp32 (a % 65536)
  | _ => convert fp16 fp32 (a / 65536)

def execVfcvt (o : OpV) (s : State) : Result := s.vflag3 o (fun d a _ => vfcvtCode o.b d a)

def execVrcp (o : OpV) (s : State) : Result := s.vflag2 o (fun a _ => rcpC a)
def execVrsq (o : OpV) (s : State) : Result := s.vflag2 o (fun a _ => rsqC a)
def execVexp2 (o : OpV) (s : State) : Result := s.vflag2 o (fun a _ => exp2C a)
def execVlog2 (o : OpV) (s : State) : Result := s.vflag2 o (fun a _ => log2C a)

end Sys2Proof.Machine
end

