-- ==== Sys2Proof/Machine/VectorMove.lean ====
section
/-! DEFINITION. Vector accesses to the X scratchpad, cross-lane operations and transom moves (file 06 R231-R240). -/

namespace Sys2Proof.Machine

/-- An effective address: the one a sticky re-issue has stepped, or the one computed at issue (file 04 R131; file 06 R211). -/
def State.addr (s : State) (i computed : Nat) : Nat :=
  match s.iss.addrs with
  | some l => l.getD i computed
  | none => computed

/-- Address i of the slot: its recorded and stepped value, reduced to 64 bits. -/
def wrapAddr (a : Nat) : Nat := a % 2 ^ 64

/-! ### Rows (R231, R233) -/

/-- aA + 64 B. -/
def State.rowAddr (s : State) (o : OpV) : Nat := s.addr 0 (wrapAddr ((s.aR o.a).toNat + 64 * o.b))

/-- Checks of one lane's word in X: quota and shutter. -/
def State.wordCheck (s : State) (ea : Nat) (write : Bool) : List Check :=
  if ea ≥ 4194304 then [.trap (paneQuota 2 (ea / 4096))] else s.paneCheck 2 (ea / 4096) write

/-- Checks of the active lanes of a row access. -/
def State.rowCheck (s : State) (g bay ea : Nat) (write : Bool) : List Check :=
  (((List.range 16).filter (s.active g bay)).map (fun l => s.wordCheck (wrapAddr (ea + 4 * l)) write)).flatten ++
    (if ea % 64 != 0 then [.trap (misaligned (BitVec.ofNat 64 ea))] else [])

def Team.word (T : Team) (ea : Nat) : Lane := BitVec.ofNat 32 (leNat (T.bytesAt 2 ea 4))

def execVld (o : OpV) (s : State) : Result :=
  .next (
    if !s.anyActive o.g o.bay then s else
    let ea := s.rowAddr o
    s.checked (s.rowCheck o.g o.bay ea false) (fun s =>
      s.setLanes o.bay o.d (dTag (s.rt.descOf (paneItem 2 (ea / 4096)))) (s.active o.g o.bay)
        ((List.range 16).map (fun l => s.rt.word (ea + 4 * l)))))

/-- A descriptor with another tag. -/
def withTag (d tag : Nat) : Nat := mkDesc (dFmt d) (dSgeo d) tag (dCb d)

/-- Write words to X, in the order of the list. -/
def Team.setWords (T : Team) (l : List (Nat × Lane)) : Team := l.foldl (fun T p => T.setBytes 2 p.1 (leBytes 4 p.2.toNat)) T

def execVst (o : OpV) (s : State) : Result :=
  .next (
    if !s.anyActive o.g o.bay then s else
    let ea := s.rowAddr o
    s.checked (s.rowCheck o.g o.bay ea true) (fun s =>
      s.setTm (fun T =>
        let T := T.setWords (((List.range 16).filter (s.active o.g o.bay)).map (fun l => (ea + 4 * l, s.vR o.bay o.d l)))
        let item := paneItem 2 (ea / 4096)
        T.setDesc item (withTag (T.descOf item) (s.vTagR o.bay o.d)))))

/-! ### Gathers and scatters (R232, R233) -/

/-- ea_l = aB + zext(vA.lane[l]); the base is the address operand. -/
def State.laneAddr (s : State) (o : OpV) (l : Nat) : Nat :=
  wrapAddr (s.addr 0 (s.aR o.b).toNat + (s.vR o.bay o.a l).toNat)

def State.gatherCheck (s : State) (o : OpV) (write : Bool) : List Check :=
  (((List.range 16).filter (s.active o.g o.bay)).map (fun l => s.xCheck (s.laneAddr o l) 4 write)).flatten

def execVldg (o : OpV) (s : State) : Result :=
  .next (s.checked (s.gatherCheck o false) (fun s =>
    s.setLanes o.bay o.d 0 (s.active o.g o.bay) ((List.range 16).map (fun l => s.rt.word (s.laneAddr o l)))))

def execVsts (o : OpV) (s : State) : Result :=
  .next (s.checked (s.gatherCheck o true) (fun s =>
    s.setTm (fun T => T.setWords (((List.range 16).filter (s.active o.g o.bay)).map (fun l => (s.laneAddr o l, s.vR o.bay o.d l))))))

/-! ### Cross-lane operations (R234-R238) -/

def execVshuf (o : OpV) (s : State) : Result :=
  s.lanewise o.bay o.g o.d (fun l =>
    let b := (s.vR o.bay o.b l).toNat
    (if bit b 5 then 0 else (s.vR o.bay o.a (b % 16)).toNat, 0))

/-- The operations of VRED and VSCAN on FP32 or integer codes (R235). -/
def redOp (code a b : Nat) : Nat × Flags :=
  let x := BitVec.ofNat 32 a
  let y := BitVec.ofNat 32 b
  match code with
  | 0 => ((x + y).toNat, 0)
  | 1 => (if x.slt y then a else b, 0)
  | 2 => (if y.slt x then a else b, 0)
  | 3 => (Nat.min a b, 0)
  | 4 => (Nat.max a b, 0)
  | 5 => ((x &&& y).toNat, 0)
  | 6 => ((x ||| y).toNat, 0)
  | 7 => ((x ^^^ y).toNat, 0)
  | 8 => fp32.addC a b
  | 9 => minMax false a b
  | _ => minMax true a b

/-- Their identities. -/
def redIdentity (code : Nat) : Nat :=
  match code with
  | 1 => 0x7FFFFFFF
  | 2 => 0x80000000
  | 3 => 0xFFFFFFFF
  | 5 => 0xFFFFFFFF
  | 8 => 0x80000000
  | 9 => 0x7F800000
  | 10 => 0xFF800000
  | _ => 0

/-- A stage of stride `h`: element i + h comes into element i for each i whose bit of that stride is 0. -/
def treeStage (op : Nat → Nat → Nat × Flags) (h : Nat) (xs : List Nat) : List Nat × Flags :=
  mapFlags (fun i => if i / h % 2 = 0 then op (xs.getD i 0) (xs.getD (i + h) 0) else (xs.getD i 0, 0)) (List.range xs.length)

/-- `n` stages of ascending stride from `h`; the result is element 0. -/
def treeReduce (op : Nat → Nat → Nat × Flags) : Nat → Nat → List Nat → Nat × Flags
  | 0, _, xs => (xs.getD 0 0, 0)
  | n + 1, h, xs =>
    let (ys, f) := treeStage op h xs
    let (r, g) := treeReduce op n (2 * h) ys
    (r, f ||| g)

/-- The lanes of vA, with the identity in the inactive ones. -/
def State.redInput (s : State) (o : OpV) (code : Nat) : List Nat :=
  (List.range 16).map (fun l => if s.active o.g o.bay l then (s.vR o.bay o.a l).toNat else redIdentity code)

def execVred (o : OpV) (s : State) : Result :=
  .next (
    if !s.anyActive o.g o.bay then s else
    let (r, f) := treeReduce (redOp o.b) 4 1 (s.redInput o o.b)
    s.numeric f (fun s => s.setLanes o.bay o.d 0 (s.active o.g o.bay) (List.replicate 16 (BitVec.ofNat 32 r))))

/-- The running results s_0, s_1, … from an accumulator. -/
def scanList (op : Nat → Nat → Nat × Flags) (acc : Nat) : List Nat → List Nat × Flags
  | [] => ([], 0)
  | x :: r =>
    let (a, f) := op acc x
    let (l, g) := scanList op a r
    (a :: l, f ||| g)

/-- R236: a running reduction over the lanes. The exclusive form raises the flags of every step, the last among them (log 126). -/
def execVscan (o : OpV) (s : State) : Result :=
  .next (
    if !s.anyActive o.g o.bay then s else
    let code := o.b % 16
    let (l, f) := scanList (redOp code) (redIdentity code) (s.redInput o code)
    let out := if bit o.b 4 then redIdentity code :: l else l
    s.numeric f (fun s => s.setLanes o.bay o.d 0 (s.active o.g o.bay) (out.map (BitVec.ofNat 32))))

/-- Bits set of a predicate from lane `lo` on, `n` of them. -/
def countLanes (p : BitVec 128) (lo n : Nat) : Nat := popCount n (bits p.toNat lo n)

def execVcntp (o : OpV) (s : State) : Result :=
  s.lanewise o.bay o.g o.d (fun l =>
    let p := s.pL o.a
    (if o.b = 0 then countLanes p (16 * o.bay) l else if o.b = 1 then countLanes p (16 * o.bay) 16 else countLanes p 0 128, 0))

def execVlane (o : OpV) (s : State) : Result :=
  s.lanewise o.bay o.g o.d (fun l => (if o.b = 1 then 16 * o.bay + l else l, 0))

/-! ### Transom moves (R239) -/

/-- A copy out of the bay, suppressed where no lane is active. -/
def State.moveOut (s : State) (o : OpV) (f : State → State) : Result := .next (if s.anyActive o.g o.bay then f s else s)

def State.rowNat (s : State) (o : OpV) : List Nat := (s.vRow o.bay o.a).map (·.toNat)

def execXmovvBay (o : OpV) (s : State) : Result :=
  s.moveOut o (fun s => s.transom 4 (.v o.b o.d) (s.rowNat o) (s.vTagR o.bay o.a))

def execXmovvAll (o : OpV) (s : State) : Result :=
  s.moveOut o (fun s => s.transomAll 4 o.d (s.rowNat o) (s.vTagR o.bay o.a))

def execXmovvA (o : OpV) (s : State) : Result :=
  s.moveOut o (fun s => s.transom 4 (.a o.d) [(s.vR o.bay o.a (o.b - 16)).toNat] 0)

def execXmovvA2 (o : OpV) (s : State) : Result :=
  s.moveOut o (fun s =>
    let k := 2 * (o.b - 32)
    s.transom 4 (.a o.d) [(s.vR o.bay o.a k).toNat + 2 ^ 32 * (s.vR o.bay o.a (k + 1)).toNat] 0)

end Sys2Proof.Machine
end

