-- ==== Sys2Proof/Machine/Narrow.lean ====
section
/-! DEFINITION. VNRW and VWDN: narrowing and widening of blocks in vector registers (file 06 R226-R230). -/

namespace Sys2Proof.Machine

/-! ### The conversion descriptor (R226) -/

def cdWtag (c : Nat) : Nat := bits c 52 10
def cdSidx (c : Nat) : Nat := bits c 44 8
def cdSpane (c : Nat) : Nat := bits c 34 10
def cdSmode (c : Nat) : Nat := bits c 32 2
def cdSpan (c : Nat) : Nat := bits c 30 2
def cdDoff (c : Nat) : Nat := bits c 26 4
def cdCb (c : Nat) : Nat := bits c 14 12
def cdTag (c : Nat) : Nat := bits c 4 10
def cdFmt (c : Nat) : Nat := bits c 0 4

/-- N, and the bytes NB of the code stream (R227). -/
def cdN (c : Nat) : Nat := 4 * 4 ^ cdSpan c
def cdBytes (c : Nat) : Nat := if cdFmt c = 7 then cdN c / 2 else cdN c
/-- Registers of the wide side and of the code stream (R227). -/
def wideRegs (c : Nat) : Nat := cdN c / 16
def codeRegs (c : Nat) : Nat := (4 * cdDoff c + cdBytes c + 63) / 64

/-- A tag in use that does not fit the block. -/
def badTag (c t : Nat) : Bool := t % 4 != 0 && t % 4 != cdSpan c

/-- The conditions of R226 on the fields and the register ranges. -/
def badFields (c wide code : Nat) (tags : List Nat) : Bool :=
  !isNarrow (cdFmt c) || cdSpan c == 0 || cdSmode c == 3 || tags.any (badTag c) || wide + wideRegs c > 64 || code + codeRegs c > 64

/-- The scale slot named does not exist in its pane (R226). -/
def State.badScale (s : State) (c : Nat) : Bool :=
  let d := s.rt.descOf (paneItem 2 (cdSpane c))
  cdSmode c != 0 && cdSpane c < s.rt.panes 2 && (dSgeo d == 0 || scaleBlocks d ≤ cdSidx c)

/-- Every check of VNRW and VWDN. A scale pane that an incomplete command closed is waited for before its descriptor, which the command
may set, is judged (R230, file 03 R109, R110). -/
def State.convCheck (s : State) (c : Nat) (bad : Bool) : List Check :=
  if bad then [.trap (illegalEncoding s.iss.word)]
  else if cdSmode c != 0 && cdSpane c < s.rt.panes 2 && s.rt.awaits (paneItem 2 (cdSpane c)) && s.rt.shutter (paneItem 2 (cdSpane c)) != .t then
    s.paneCheck 2 (cdSpane c) (cdSmode c = 1)
  else if s.badScale c then [.trap (illegalEncoding s.iss.word)]
  else if cdSmode c = 0 then [] else s.paneCheck 2 (cdSpane c) (cdSmode c = 1)

/-- The BF16 scale at margin bytes 2 SIDX of pane SPANE. -/
def State.marginScale (s : State) (c : Nat) : Nat := leNat (s.rt.marginAt (paneItem 2 (cdSpane c)) (2 * cdSidx c) 2)

/-- `n` registers of a bay from `v`, as lane codes. -/
def State.rowsFrom (s : State) (bay v n : Nat) : List Nat :=
  (NMap.getList 0 s.rs.v (vKey bay v 0) (16 * n)).map (·.toNat)

/-- Write lanes `lo` to `lo + vals.length - 1`, counted from register `v` on, where the guard is 1, with a tag for each register
written. -/
def State.setRange (s : State) (bay g v lo tag : Nat) (vals : List Lane) : State :=
  s.forEach (List.range ((lo + vals.length + 15) / 16)) (fun s j =>
    s.setLanes bay (v + j) tag (fun l => s.active g bay l && lo ≤ 16 * j + l && 16 * j + l < lo + vals.length)
      ((List.range 16).map (fun l => vals.getD (16 * j + l - lo) 0)))

/-! ### VNRW (R228) -/

/-- One element under a supplied scale (R228): the loop of R59, which takes 0 for a finite value under a zero scale, and else the IEEE 754
quotient; a NaN scale sets NV. -/
def encodeSupplied (fmt : Nat) (book : List Nat) (sc : FVal) (y : FVal) : Nat × Flags :=
  let (v, f) := if sc.isZero && y.finite then (.num false 0 1, 0) else y.div sc
  let (k, g) := encodeElem fmt book v
  (k, f ||| g ||| flagIf sc.isNan fNV)

/-- The codes of a block, its scale and the flags. -/
def State.narrowBlock (s : State) (c : Nat) (x : List FVal) : List Nat × Nat × Flags :=
  let book := s.codebook (cdCb c)
  let (y, f) := if cdTag c % 4 = 0 then (x, 0) else overBlocks (tagBlock (cdTag c)) (rotateBlock (s.signs (cdTag c))) x
  match cdSmode c with
  | 0 =>
    let (k, g) := mapFlags (encodeElem (cdFmt c) book) y
    (k, bf16One, f ||| g)
  | 1 =>
    let (sc, g) := blockScale (cdFmt c) book y
    let (k, h) := mapFlags (encodeScaled (cdFmt c) book sc) y
    (k, sc, f ||| g ||| h)
  | _ =>
    let sc := s.marginScale c
    let (k, g) := mapFlags (encodeSupplied (cdFmt c) book (bf16.decode sc)) y
    (k, sc, f ||| g)

/-- VNRW (R226-R230): the registers written take the tag that the descriptor names, also one with BCODE 0 and a SEED other than 0
(log 98). -/
def execVnrw (o : OpV) (s : State) : Result :=
  .next (
    if !s.anyActive o.g o.bay then s else
    let c := (s.aR o.b).toNat
    s.checked (s.convCheck c (badFields c o.a o.d [cdTag c])) (fun s =>
      let x := (s.rowsFrom o.bay o.a (wideRegs c)).map fp32.decode
      let (codes, sc, f) := s.narrowBlock c x
      let lanes := (chunks 4 (bytesOf (cdFmt c) codes)).map (fun b => BitVec.ofNat 32 (leNat b))
      let written := (List.range lanes.length).any (fun i => s.active o.g o.bay ((cdDoff c + i) % 16))
      s.numeric f (fun s =>
        let s := s.setRange o.bay o.g o.d (cdDoff c) (cdTag c) lanes
        if cdSmode c = 1 && written then
          s.setTm (fun T => T.setMargin (paneItem 2 (cdSpane c)) (2 * cdSidx c) (leBytes 2 sc))
        else s)))

/-! ### VWDN (R229) -/

def State.widenBlock (s : State) (c u : Nat) (codes : List Nat) : List FVal × Flags :=
  let book := s.codebook (cdCb c)
  let sc := if cdSmode c = 2 then s.marginScale c else bf16One
  let (x, f) := mapFlags (fun k => r32 (decodeElem (cdFmt c) book sc k)) codes
  let (y, g) := s.rerotate u (cdWtag c) x
  (y, f ||| g)

def execVwdn (o : OpV) (s : State) : Result :=
  .next (
    if !s.anyActive o.g o.bay then s else
    let c := (s.aR o.b).toNat
    let u := s.vTagR o.bay o.a
    s.checked (s.convCheck c (badFields c o.d o.a [u, cdWtag c] || cdSmode c = 1)) (fun s =>
      let bs := ((s.rowsFrom o.bay o.a (codeRegs c)).map (leBytes 4)).flatten
      let stream := (bs.drop (4 * cdDoff c)).take (cdBytes c)
      let (y, f) := s.widenBlock c u (elemsOf (cdFmt c) stream)
      s.numeric f (fun s => s.setRange o.bay o.g o.d 0 0 (y.map (fun v => BitVec.ofNat 32 (fp32.round v).1)))))

end Sys2Proof.Machine
end

