-- ==== Sys2Proof/Machine/Matrix.lean ====
section
/-! DEFINITION. The M slot (file 07 R242-R262, R301, R309): checks at issue, the M queue, and what each operation computes. -/

namespace Sys2Proof.Machine

/-! ### Operands (R244, R246) -/

/-- The effective address of a W or X pane operand, `i`-th address of the slot. -/
def State.paneArg (s : State) (i x : Nat) : Nat := s.addr i (if x < 1024 then 4096 * x else (s.aR (x % 64)).toNat)

/-- The pane of a buffer address. -/
def paneAt (a : Nat) : Nat := a / 4096

/-- Alignment and quota of `n` panes from an address (R244). -/
def State.paneArgCheck (s : State) (buf a n : Nat) : List Check :=
  if a % 4096 != 0 then [.trap (misaligned (BitVec.ofNat 64 a))]
  else if a ≥ 4194304 then [.trap (paneQuota buf (a / 4096))]
  else match (List.range n).find? (fun i => s.rt.panes buf ≤ paneAt a + i) with
    | some i => [.trap (paneQuota buf (paneAt a + i))]
    | none => []

/-- A tile name in the quota (R26). -/
def State.tileCheck (s : State) (t : Nat) : List Check := if s.rt.tiles ≤ t then [.trap (tileQuota t)] else []

/-- An M operation and a pane's shutter (R247): a pane closed with no incomplete command of the team but the
ring engine's traps. -/
def State.mShutter (s : State) (buf pane : Nat) : List Check :=
  match s.shutterCheck buf pane with
  | .trap r => [.trap r]
  | _ => []

def State.mShutters (s : State) (buf pane n : Nat) : List Check :=
  ((List.range n).map (fun i => s.mShutter buf (pane + i))).flatten

/-- Alignment, quota and shutters of `n` panes that an M operation uses. -/
def State.mPanes (s : State) (buf a n : Nat) : List Check :=
  let q := s.paneArgCheck buf a n
  if q.isEmpty then s.mShutters buf (paneAt a) n else q

/-- The descriptor that an MST gives the panes it writes (R256): its tag as named (log 98). -/
def mstDesc : Instr → Option Nat
  | .mst o => some (mkDesc o.fmt o.sgeo o.tag o.cb)
  | _ => none

/-- The open panes that an operation reads, or that an MST writes, with the descriptors they have for it (file 02 R72). -/
def Team.openDescs (T : Team) (o : MOp) : List (Nat × Nat) :=
  match mstDesc o.op with
  | some d => (o.writes.filter (fun i => T.shutter i == .t)).map (fun i => (i, d))
  | none => ((o.reads T).filter (fun i => 32 ≤ i && T.shutter i == .t)).eraseDups.map (fun i => (i, T.descOf i))

/-- Enter the M queue (R247, R309); a full queue stalls the issue. An MST sets the descriptors of its open panes as its bundle retires (file
02 R72); those of a pane that an engine holds are set when it is performed. -/
def State.enqueueM (s : State) (o : MOp) : State :=
  let t := teamOf s.cur
  let c := s.coreOf t
  if (s.core c).mq.length ≥ 8 then s.block .stall
  else
    let o := { o with strand := s.cur, ready := s.cycle + 1, before := s.nextCmd, descs := s.tm.openDescs o }
    let s := if (mstDesc o.op).isSome then s.updTeam t (fun T => T.seenBy o) else s
    s.updCore c (fun K => { K with mq := K.mq ++ [o] })

/-! ### Tags and formats of products (R74, R251) -/

/-- Class of a matrix operand format: Kp and chunk c, or none. -/
def matClass (fmt : Nat) : Option (Nat × Nat) :=
  if fmt = 2 then some (32, 2) else if fmt = 4 || fmt = 5 || fmt = 6 then some (64, 4) else if fmt = 7 then some (128, 4) else none

/-- The cause for one pane pair, with the formats of the run. -/
def pairCause (int : Bool) (fw fx wd xd : Nat) : Option Nat :=
  match matClass (dFmt wd), matClass (dFmt xd) with
  | some a, some b =>
    if a != b || dFmt wd != fw || dFmt xd != fx || (int && !(dFmt wd == 6 && dFmt xd == 6)) then some 2
    else tagCause a.1 (dTag wd) (dTag xd)
  | _, _ => some 2

/-- The pane pairs of an operation of the MMA family: W pane, and the X panes read with it in the order of the lowest output row. -/
def MOp.pairs (o : MOp) (n : Nat) : List (Nat × Nat) :=
  match o.op with
  | .mmag _ => ((List.range n).map (fun p => ((List.range 64).map (fun i => latchPane o.latch i + p)).eraseDups.map (fun x => (o.w + p, x)))).flatten
  | _ => (List.range n).map (fun p => (o.w + p, o.x + p))

/-- The cause for one pane whose partner is not checked yet (R74, R247): its format, or a rotation block that its K range does not hold. -/
def paneCause (int : Bool) (f d : Nat) : Option Nat :=
  match matClass (dFmt d) with
  | some a => if dFmt d != f || (int && dFmt d != 6) then some 2 else if tagBlock (dTag d) > a.1 then some 1 else none
  | none => some 2

/-- The first pair that fails on its panes that a test selects: its TINFO record. -/
def Team.mmaCause (T : Team) (o : MOp) (n : Nat) (int : Bool) (test : Nat → Bool) : Option TrapRec :=
  let ps := o.pairs n
  let wd := fun (p : Nat × Nat) => T.descOf (paneItem 1 p.1)
  let xd := fun (p : Nat × Nat) => T.descOf (paneItem 2 p.2)
  let tw := fun (p : Nat × Nat) => test (paneItem 1 p.1)
  let tx := fun (p : Nat × Nat) => test (paneItem 2 p.2)
  let fw := ((ps.find? tw).map (fun p => dFmt (wd p))).getD 0
  let fx := ((ps.find? tx).map (fun p => dFmt (xd p))).getD 0
  ps.findSome? (fun p =>
    let c := if tw p && tx p then pairCause int fw fx (wd p) (xd p)
      else if tw p then paneCause int fw (wd p)
      else if tx p then paneCause int fx (xd p) else none
    c.map (fun c => tagTrap false p.1 p.2 c (dTag (wd p)) (dTag (xd p))))

def optCheck (r : Option TrapRec) : List Check := match r with | some r => [.trap r] | none => []

/-! ### The MMA family (R251-R253) -/

/-- An MMA, MMAZ or MMAG at issue. -/
def State.mmaIssue (s : State) (i : Instr) (o : OpMA) (gather : Bool) : Result :=
  .next (s.guarded o.g (fun s =>
    let n := o.kp + 1
    let td := s.addr 0 o.td
    let wa := s.paneArg 1 o.wp
    let xa := s.paneArg 2 o.xp
    let op : MOp := { strand := s.cur, op := i, tile := td, w := paneAt wa, x := paneAt xa, latch := if gather then s.rs.latch else [] }
    let base := s.tileCheck td ++ s.mPanes 1 wa n ++
      (if gather then s.paneArgCheck 2 xa n ++ ((List.range 64).map (fun r => s.mPanes 2 (4096 * latchPane op.latch r) n)).flatten
       else s.mPanes 2 xa n)
    let isT := fun (i : Nat) => s.rt.shutter i == .t
    s.checked (if (firstTrap base).isSome then base else optCheck (s.rt.mmaCause op n (o.int == 1) isT)) (fun s => s.enqueueM op)))

def execMma (o : OpMA) (s : State) : Result := s.mmaIssue (.mma o) o false
def execMmaz (o : OpMA) (s : State) : Result := s.mmaIssue (.mmaz o) o false
def execMmag (o : OpMA) (s : State) : Result := s.mmaIssue (.mmag o) o true

/-- MIDX (R254): a transom copy of vA into half of the index latch. -/
def execMidx (o : OpMI) (s : State) : Result :=
  .next (s.guarded o.g (fun s =>
    s.transom 4 (.latch o.half) (((s.vRow o.bay o.va).map (fun v => [v.toNat % 65536, v.toNat / 65536])).flatten) 0))

/-! ### Tile loads and stores (R255, R256) -/

/-- The descriptor checks of MLD over the panes of its run that a test selects (R255). Tags are compared by their bits (log 127). -/
def Team.mldCause (T : Team) (x : Nat) (test : Nat → Bool) : Option TrapRec :=
  let d := T.descOf (paneItem 2 x)
  if dFmt d = 0 || dFmt d = 7 || dFmt d > 8 then some (tagTrap false x x 2 (dTag d) (dTag d))
  else ((List.range (runLen (dFmt d))).map (x + ·)).findSome? (fun y =>
    if !test y then none else
    let e := T.descOf (paneItem 2 y)
    if dFmt e != dFmt d || dSgeo e != dSgeo d || dCb e != dCb d then some (tagTrap false x y 2 (dTag d) (dTag e))
    else if dTag e != dTag d then some (tagTrap false x y 0 (dTag d) (dTag e))
    else none)

/-- R255: a pane of the run after the first whose shutter is E is judged when the operation comes to the head of its queue (log 128). -/
def execMld (o : OpMX) (s : State) : Result :=
  .next (s.guarded o.g (fun s =>
    let td := s.addr 0 o.t
    let xa := s.paneArg 1 o.xp
    let x := paneAt xa
    let open_ := s.rt.shutter (paneItem 2 x) == .t
    let n := if open_ then runLen (dFmt (s.rt.descOf (paneItem 2 x))) else 1
    let op : MOp := { strand := s.cur, op := .mld o, tile := td, x := x, deferred := !open_ }
    let base := s.tileCheck td ++ s.mPanes 2 xa n
    let tags := if open_ then optCheck (s.rt.mldCause x (fun y => s.rt.shutter (paneItem 2 y) == .t)) else []
    s.checked (if (firstTrap base).isSome then base else tags) (fun s => s.enqueueM op)))

def execMst (o : OpMX) (s : State) : Result :=
  .next (s.guarded o.g (fun s =>
    let td := s.addr 0 o.t
    let xa := s.paneArg 1 o.xp
    let n := runLen o.fmt
    let op : MOp := { strand := s.cur, op := .mst o, tile := td, x := paneAt xa }
    s.checked (s.tileCheck td ++ s.mPanes 2 xa n) (fun s => s.enqueueM op)))

/-! ### Operations on tiles (R257-R261) -/

/-- An operation on tiles: `tiles` are the names it uses. -/
def State.tileIssue (s : State) (i : Instr) (o : OpMT) (tiles : Nat → List Nat) : Result :=
  .next (s.guarded o.g (fun s =>
    let td := s.addr 0 o.td
    s.checked ((tiles td).map s.tileCheck).flatten (fun s => s.enqueueM { strand := s.cur, op := i, tile := td })))

def execMzero (o : OpMT) (s : State) : Result := s.tileIssue (.mzero o) o (fun td => (List.range (o.cnt + 1)).map (td + ·))
def execMtrn (o : OpMT) (s : State) : Result := s.tileIssue (.mtrn o) o (fun td => [td, o.ta])
def execMrowmax (o : OpMT) (s : State) : Result := s.tileIssue (.mrowmax o) o (fun td => [td, o.ta])
def execMrowsum (o : OpMT) (s : State) : Result := s.tileIssue (.mrowsum o) o (fun td => [td, o.ta])
def execMscale (o : OpMT) (s : State) : Result := s.tileIssue (.mscale o) o (fun td => [td, o.ta, o.tb])
def execMaddt (o : OpMT) (s : State) : Result := s.tileIssue (.maddt o) o (fun td => [td, o.ta, o.tb])

/-- R262: issue stalls until the strand's earlier operations, or those that write tile TD, have completed. -/
def execMwait (o : OpMW) (s : State) : Result :=
  .next (s.guarded o.g (fun s =>
    let td := s.addr 0 o.td
    let mine := (s.mOps (teamOf s.cur)).filter (fun p => p.strand == s.cur && (o.one == 0 || p.writes.contains td))
    s.checked (if o.one = 1 then s.tileCheck td else []) (fun s => if mine.isEmpty then s else s.block .stall)))

/-! ### Tiles as values (R250) -/

/-- The 4,096 elements of a tile; a void tile reads +0. -/
def Team.tileAt (T : Team) (t : Nat) : List Nat :=
  if NMap.get false T.tvalid t then (NMap.getList 0 T.tile (4096 * t) 4096).map (·.toNat) else List.replicate 4096 0

def Team.setTile (T : Team) (t : Nat) (vals : List Lane) : Team :=
  { T with tile := NMap.setList 0 T.tile (4096 * t) vals, tvalid := NMap.set false T.tvalid t true }

/-- The rows of a tile. -/
def rows64 (l : List Nat) : List (List Nat) := chunks 64 l

/-! ### What the MMA family computes (R76, R77, R252) -/

/-- The exact sum of a chunk's products (R76). -/
def chunkSum (ps : List (FVal × Flags)) : FVal × Flags :=
  let f := orFlags (ps.map (·.2))
  let vs := ps.map (·.1)
  let both := vs.contains (.inf false) && vs.contains (.inf true)
  if vs.any FVal.isNan || both then (.nan false, f ||| flagIf both fNV)
  else match vs with
    | [] => (.num false 0 1, f)
    | v :: r => (r.foldl (fun a b => (a.add b).1) v, f)

/-- One chunk into an FP32 accumulator. -/
def mmaStep (acc : Nat × Flags) (a w : List FVal) : Nat × Flags :=
  let (p, f) := chunkSum ((a.zip w).map (fun q => q.1.mul q.2))
  let (c, g) := fp32.result ((fp32.decode acc.1).add p)
  (c, acc.2 ||| f ||| g)

/-- One chunk of I8 codes into an I32 accumulator (R77). -/
def mmaStepInt (acc : Nat × Flags) (a w : List Nat) : Nat × Flags :=
  let p := (a.zip w).foldl (fun t q => t + sextInt 8 q.1 * sextInt 8 q.2) 0
  let (x, f) := satInt (-2147483648) 2147483647 (sextInt 32 acc.1 + p)
  ((BitVec.ofInt 32 x).toNat, acc.2 ||| f)

/-- Fold a step over the chunks of a pair of rows. -/
def foldChunks {α : Type} (c : Nat) (step : Nat × Flags → List α → List α → Nat × Flags) (acc : Nat × Flags) (a w : List α) : Nat × Flags :=
  ((chunks c a).zip (chunks c w)).foldl (fun acc p => step acc p.1 p.2) acc

/-- The codes and scales of a pane. -/
def Team.paneCodes (T : Team) (item : Nat) : List Nat :=
  elemsOf (dFmt (T.descOf item)) (NMap.getList 0 T.pane (paneBase item) 4096)
def Team.paneScales (T : Team) (item : Nat) : List Nat :=
  (chunks 2 (T.marginAt item 0 (2 * scaleBlocks (T.descOf item)))).map leNat

/-- The decoded rows of a pane, `kp` elements each, with the flags of each row. -/
def State.paneRows (s : State) (T : Team) (item kp : Nat) : List (List FVal × Flags) :=
  let d := T.descOf item
  let book := s.codebook (dCb d)
  let len := scaleLen (dSgeo d)
  let sc := T.paneScales item
  let codes := T.paneCodes item
  (chunks kp ((List.range codes.length).zip codes)).map (mapFlags (fun (p : Nat × Nat) =>
    decodeElem (dFmt d) book (if len = 0 then bf16One else sc.getD (p.1 / len) 0) p.2))

/-- All outputs of a product: `xs` and `ws` give, for each pane pair, the 64 rows of X (by output row) and of W. -/
def productTile {α : Type} (c : Nat) (step : Nat × Flags → List α → List α → Nat × Flags) (acc0 : List (List Nat))
    (xs ws : List (List (List α))) : List Nat × Flags :=
  let outs := (List.range 64).map (fun i =>
    (List.range 64).map (fun j =>
      (xs.zip ws).foldl (fun acc p => foldChunks c step acc (p.1.getD i []) (p.2.getD j [])) ((acc0.getD i []).getD j 0, (0 : Flags))))
  ((outs.map (fun r => r.map (·.1))).flatten, orFlags (outs.map (fun r => orFlags (r.map (·.2)))))

/-- The accumulator an operation of the family ends with. -/
def State.mmaValue (s : State) (T : Team) (o : MOp) (n : Nat) (int zero gather : Bool) : List Nat × Flags :=
  let (kp, c) := (matClass (dFmt (T.descOf (paneItem 1 o.w)))).getD (32, 2)
  let acc0 := rows64 (if zero then List.replicate 4096 0 else T.tileAt o.tile)
  if int then
    let rowsOf := fun (item : Nat) => chunks kp (T.paneCodes item)
    let ws := (List.range n).map (fun p => rowsOf (paneItem 1 (o.w + p)))
    let xs := (List.range n).map (fun p =>
      if gather then (List.range 64).map (fun i => (rowsOf (paneItem 2 (latchPane o.latch i + p))).getD (latchRow o.latch i) [])
      else rowsOf (paneItem 2 (o.x + p)))
    productTile c mmaStepInt acc0 xs ws
  else
    let wr := (List.range n).map (fun p => s.paneRows T (paneItem 1 (o.w + p)) kp)
    let xr := (List.range n).map (fun p =>
      if gather then (List.range 64).map (fun i =>
        (s.paneRows T (paneItem 2 (latchPane o.latch i + p)) kp).getD (latchRow o.latch i) ([], 0))
      else s.paneRows T (paneItem 2 (o.x + p)) kp)
    let (r, f) := productTile c mmaStep acc0 (xr.map (·.map (·.1))) (wr.map (·.map (·.1)))
    (r, f ||| orFlags ((wr.flatten).map (·.2)) ||| orFlags ((xr.flatten).map (·.2)))

/-! ### What the other operations compute -/

/-- MLD (R255): the elements of the run as FP32 or I32 words. -/
def State.mldValue (s : State) (T : Team) (x : Nat) : List Nat × Flags :=
  let d := T.descOf (paneItem 2 x)
  let items := paneRun 2 x (runLen (dFmt d))
  let parts := items.map (fun i =>
    if dFmt d = 1 || dFmt d = 8 then (T.paneCodes i, (0 : Flags))
    else
      let (v, f) := s.widenList d (T.paneCodes i) (T.paneScales i)
      let (v, g) := if isNarrow (dFmt d) then s.rerotate (dTag d) 0 v else (v, 0)
      let (c, h) := mapFlags fp32.round v
      (c, f ||| g ||| h))
  ((parts.map (·.1)).flatten, orFlags (parts.map (·.2)))

/-- MST (R256): element codes, scales and flags for the destination. -/
def State.mstValue (s : State) (o : OpMX) (vals : List Nat) : List Nat × List Nat × Flags :=
  if o.int = 1 then
    if o.fmt = 8 then (vals, [], 0)
    else
      let (c, f) := mapFlags (fun v =>
        let (x, f) := satInt (-127) 127 (sextInt 32 v)
        ((BitVec.ofInt 8 x).toNat, f)) vals
      (c, [], f)
  else s.convertList 1 (mkDesc o.fmt o.sgeo o.tag o.cb) vals []

/-- The panes an MST writes: pane, its bytes, the first bytes of its margin, its descriptor. -/
def mstPanes (T : Team) (o : OpMX) (x : Nat) (codes scales : List Nat) : List (Nat × List Byte × List Byte × Nat) :=
  let d := mkDesc o.fmt o.sgeo o.tag o.cb
  let bs := bytesOf o.fmt codes
  let sb := (scales.map (leBytes 2)).flatten
  if o.fmt = 7 then
    let old := T.bytesAt 2 (4096 * x) 4096
    let oldM := T.marginAt (paneItem 2 x) 0 (2 * sb.length)
    if o.chalf = 0 then [(x, bs ++ old.drop 2048, sb ++ oldM.drop sb.length, d)]
    else [(x, old.take 2048 ++ bs, oldM.take sb.length ++ sb, d)]
  else (List.range (runLen o.fmt)).map (fun i => (x + i, (bs.drop (4096 * i)).take 4096, sb, d))

/-- Replace column `col` of a tile. -/
def setColumn (col : Nat) (t : List Nat) (vals : List Nat) : List Nat :=
  ((rows64 t).zip vals).map (fun p => p.1.take col ++ p.2 :: p.1.drop (col + 1)) |>.flatten

/-- A sum or maximum of I32 words, saturated. -/
def intRow (mx acc : Bool) (row : List Nat) (old : Nat) : Nat × Flags :=
  let xs := row.map (sextInt 32)
  let r : Int := if mx then xs.foldl max (-2147483648) else xs.foldl (· + ·) 0
  let o := sextInt 32 old
  let (x, f) := satInt (-2147483648) 2147483647 (if acc then (if mx then max o r else o + r) else r)
  ((BitVec.ofInt 32 x).toNat, f)

/-- The same of FP32 words (R259). -/
def floatRow (mx acc : Bool) (row : List Nat) (old : Nat) : Nat × Flags :=
  let op := if mx then minMax true else fp32.addC
  let (r, f) := treeReduce op 6 1 row
  if acc then
    let (x, g) := op old r
    (x, f ||| g)
  else (r, f)

def rowValue (o : OpMT) (mx : Bool) (a d : List Nat) : List Nat × Flags :=
  let old := (rows64 d).map (fun r => r.getD o.col 0)
  let (v, f) := mapFlags (fun (p : List Nat × Nat) =>
    if o.int = 1 then intRow mx (o.mode == 1) p.1 p.2 else floatRow mx (o.mode == 1) p.1 p.2) ((rows64 a).zip old)
  (setColumn o.col d v, f)

/-- One element of MSCALE (R260). -/
def scaleElem (mode a sc : Nat) : Nat × Flags :=
  let x := fp32.decode a
  let y := fp32.decode sc
  match mode with
  | 0 => fp32.result (x.mul y)
  | 1 =>
    let (v, f) := x.sub y
    let (c, g) := exp2V v
    (c, f ||| g)
  | _ => fp32.result (x.div y)

def scaleValue (o : OpMT) (a b : List Nat) : List Nat × Flags :=
  let parts := ((rows64 a).zip (rows64 b)).map (fun p => mapFlags (fun x => scaleElem o.mode x (p.2.getD o.col 0)) p.1)
  ((parts.map (·.1)).flatten, orFlags (parts.map (·.2)))

def addTiles (int : Bool) (a b : List Nat) : List Nat × Flags :=
  mapFlags (fun (p : Nat × Nat) =>
    if int then
      let (x, f) := satInt (-2147483648) 2147483647 (sextInt 32 p.1 + sextInt 32 p.2)
      ((BitVec.ofInt 32 x).toNat, f)
    else fp32.addC p.1 p.2) (a.zip b)

def transposeTile (a : List Nat) : List Nat :=
  let rs := rows64 a
  ((List.range 64).map (fun i => rs.map (fun r => r.getD i 0))).flatten

/-! ### The operation at the head (R248, R249, R301) -/

/-- Occupancy in counted cycles (R301). -/
def MOp.occupancy (T : Team) (o : MOp) : Nat :=
  let per := if dFmt (T.descOf (paneItem 1 o.w)) = 7 then 32 else 16
  match o.op with
  | .mma m => per * (m.kp + 1)
  | .mmaz m => per * (m.kp + 1)
  | .mmag m => per * (m.kp + 1)
  | .mzero m => 32 * (m.cnt + 1)
  | .mtrn _ => 64
  | .maddt _ => 64
  | .mrowmax _ => 40
  | .mrowsum _ => 40
  | .mscale m => if m.mode = 1 then 48 else 40
  | _ => 32

/-- Units charged per cycle (R316). -/
def MOp.rate (T : Team) (o : MOp) : Nat :=
  match o.op with
  | .mma _ => if dFmt (T.descOf (paneItem 1 o.w)) = 7 then 4 else 5
  | .mmaz _ => if dFmt (T.descOf (paneItem 1 o.w)) = 7 then 4 else 5
  | .mmag _ => if dFmt (T.descOf (paneItem 1 o.w)) = 7 then 4 else 5
  | _ => 4

/-- The check made at the head of the queue (R248, R255): the pane that fails it. -/
def Team.headCheck (T : Team) (o : MOp) : Option Nat :=
  let mma := fun (m : OpMA) => (T.mmaCause o (m.kp + 1) (m.int == 1) (fun _ => true)).map (fun r => bits r.tinfo.toNat 30 11)
  match o.op with
  | .mma m => mma m
  | .mmaz m => mma m
  | .mmag m => mma m
  | .mld _ =>
    let run := (List.range (runLen (dFmt (T.descOf (paneItem 2 o.x))))).map (o.x + ·)
    if !o.deferred then (T.mldCause o.x (fun _ => true)).map (fun _ => o.x)
    else if run.any (fun p => T.xp ≤ p) then some o.x
    else match run.find? (fun p => T.shutter (paneItem 2 p) != .t && !T.awaits (paneItem 2 p)) with
      | some p => some p
      | none => (T.mldCause o.x (fun _ => true)).map (fun _ => o.x)
  | _ => none

/-- An operation whose whole check is deferred: a pane of its run that the ring engine holds fails it, and is not waited for (R255). -/
def MOp.runDeferred (o : MOp) : Bool :=
  match o.op with
  | .mld _ => o.deferred
  | _ => false

/-- An item still waited for: an earlier command names it, or it is not in its place (R249, R418). -/
def Team.itemWaits (T : Team) (o : MOp) (i : Nat) : Bool :=
  T.away o.ready i || T.cmds.any (fun c => c.id < o.before && c.items.contains i && !(o.runDeferred && c.ring.isSome))

/-- The operation may start. -/
def State.mReady (s : State) (o : MOp) : Bool :=
  let T := s.team (teamOf o.strand)
  !((o.reads T ++ o.writes).any (T.itemWaits o))

/-- What an operation will write, from its operands as they stand when it begins (R249). -/
def State.mCompute (s : State) (o : MOp) (start : Nat) : MRun :=
  let T := (s.team (teamOf o.strand)).seenBy o
  let run : MRun := { op := o, done := start }
  let lanes := fun (l : List Nat) => l.map (BitVec.ofNat 32)
  let one := fun (r : List Nat × Flags) => { run with tiles := [(o.tile, lanes r.1)], flags := r.2 }
  match o.op with
  | .mma m => one (s.mmaValue T o (m.kp + 1) (m.int == 1) false false)
  | .mmaz m => one (s.mmaValue T o (m.kp + 1) (m.int == 1) true false)
  | .mmag m => one (s.mmaValue T o (m.kp + 1) (m.int == 1) false true)
  | .mld _ => one (s.mldValue T o.x)
  | .mst m =>
    let (c, sc, f) := s.mstValue m (T.tileAt o.tile)
    { run with panes := mstPanes T m o.x c sc, flags := f }
  | .mzero m =>
    let ts := (List.range (m.cnt + 1)).map (o.tile + ·)
    if m.mode = 0 then { run with tiles := ts.map (fun t => (t, List.replicate 4096 0)) }
    else { run with marks := ts.map (fun t => (t, m.mode == 1)) }
  | .mtrn m => one (transposeTile (T.tileAt m.ta), 0)
  | .mrowmax m => one (rowValue m true (T.tileAt m.ta) (T.tileAt o.tile))
  | .mrowsum m => one (rowValue m false (T.tileAt m.ta) (T.tileAt o.tile))
  | .mscale m => one (scaleValue m (T.tileAt m.ta) (T.tileAt m.tb))
  | .maddt m => one (addTiles (m.int == 1) (T.tileAt m.ta) (T.tileAt m.tb))
  | _ => run

/-- Charge a core's meter on some cycles (R316). -/
def State.charge (s : State) (core units : Nat) (ts : List Nat) : State :=
  s.updCore core (fun K => { K with meter := K.meter.filter (fun p => s.cycle < p.1 + 256) ++ ts.map (fun t => (t, units)) })

/-- The cycle on which the head of a core's M queue can start. -/
def Core.mStart (K : Core) (now : Nat) : Nat :=
  Nat.max now (Nat.max (K.mfree + 1) ((K.mq.head?.map (·.ready)).getD 0))

/-- The head of the M queue starts (R249, R309); an operation that fails its deferred check has no effect but NV and error 0x13
(R248); it occupies the engine as R301 gives. -/
def execMOpStart (core : Nat) (s : State) : Result :=
  let K := s.core core
  .next (match K.mrun, K.mq with
    | none, o :: rest =>
      if !s.mReady o then s else
      let t := K.mStart s.cycle
      let T := (s.team (teamOf o.strand)).seenBy o
      let bad := T.headCheck o
      let n := o.occupancy T
      let ts := s.passList core o.op (20 * n + 64) t n
      let run : MRun := match bad with
        | some _ => { op := o, done := t, flags := fNV }
        | none => s.mCompute o t
      let s := { s with cycle := t }
      let s := s.updCore core (fun K => { K with mq := rest, mrun := some { run with done := ts.getLastD t, rate := o.rate T } })
      let s := s.charge core (o.rate T) ts
      match bad with
      | some d => s.jcbError T.launch 0x13 d 0
      | none => s
    | _, _ => s)

/-- Write what an operation computed; the descriptor of a pane that was open at issue is set since then (file 02 R72). -/
def Team.applyRun (T : Team) (r : MRun) : Team :=
  let T := r.tiles.foldl (fun T p => T.setTile p.1 p.2) T
  let T := r.panes.foldl (fun T p =>
    let i := paneItem 2 p.1
    let T := (T.setBytes 2 (4096 * p.1) p.2.1).setMargin i 0 p.2.2.1
    if r.op.descs.any (fun q => q.1 == i) then T else T.setDesc i p.2.2.2) T
  r.marks.foldl (fun T p => { T with tdisc := NMap.set false T.tdisc p.1 p.2 }) T

end Sys2Proof.Machine
end

