-- ==== Sys2Proof/Machine/Engines.lean ====
section
/-! DEFINITION. Engine commands (file 07 R263-R266, R303, R308): operands and checks at issue, the D queue and promises, and an
engine's reads and writes of global memory (file 03 R87, R91, R109-R113, R116). -/

namespace Sys2Proof.Machine

/-! ### Operands and checks (R243, R244, R246, R263) -/

/-- The address of a DE operand in a space: a virtual address, a buffer byte address, or a tile name; the `i`-th address of the
slot. -/
def State.deArg (s : State) (i sp x : Nat) : Nat :=
  if sp = 0 then s.addr i (s.aR (x % 64)).toNat
  else if sp = 3 then s.addr i (x % 32)
  else s.paneArg i x

/-- The source operand is a pane handle (R244). -/
def byHandle (o : OpDE) : Bool := o.ssp == 2 && 1536 ≤ o.src

/-- Items of `n` panes or tiles of a space from an address. -/
def deItems (sp a n : Nat) : List Nat :=
  if sp = 0 then [] else if sp = 3 then (List.range n).map (a + ·) else paneRun sp (paneAt a) n

/-- A command and a pane's shutter: a pane closed with no incomplete command of the team traps (R110, R263). -/
def State.deChecks (s : State) (sp a n : Nat) : List Check :=
  if sp = 0 then []
  else if sp = 3 then ((List.range n).map (fun i => s.tileCheck (a + i))).flatten
  else s.mPanes sp a n

/-- A global operand must be a multiple of 256 (R269, R273). -/
def globalAlign (sp a : Nat) : List Check :=
  if sp = 0 && a % 256 != 0 then [.trap (misaligned (BitVec.ofNat 64 a))] else []

/-- An illegal register operand of a command (R269, R271). -/
def State.regCheck (s : State) (bad : Bool) : List Check := if bad then [.trap (illegalEncoding s.iss.word)] else []

/-- A descriptor register that may not be set: a reserved format, an illegal scale geometry, a reserved bit (R46, R269). -/
def badDescReg (w : Nat) : Bool := !legalDesc w || bits w 29 3 != 0

/-! ### The D queue and promises (R263, R264, R302; file 03 R116; file 08 R308) -/

/-- The engine of a command that has a rate of R308: 0 copy and fill, 2 row gather, 3 table. -/
def engineOf : Instr → Option Nat
  | .dcopy _ => some 0
  | .dcopy2 _ => some 0
  | .dfill _ => some 0
  | .dgath _ => some 2
  | .dtbl _ => some 3
  | .dtblld _ => some 3
  | _ => none

/-- Two commands are of one engine, which performs them in turn. -/
def Cmd.sameEngine (c d : Cmd) : Bool := (engineOf c.op).isSome && engineOf c.op == engineOf d.op

/-- The table slot that a command uses. -/
def Cmd.slotOf (c : Cmd) : Option Nat :=
  match c.op with
  | .dtbl o => some (o.aux2 % 4)
  | .dtblld o => some (o.sub % 4)
  | _ => none

/-- Two commands must be performed in issue order: they name a common pane, tile or table slot (R263, R274). -/
def Cmd.conflicts (c d : Cmd) : Bool :=
  c.items.any (fun i => d.items.contains i) || (c.slotOf.isSome && c.slotOf == d.slotOf)

/-- The commands of a core's teams that have not completed, with their teams. -/
def State.coreCmds (s : State) (core : Nat) : List (Nat × Cmd) :=
  ((s.teams.filter (fun p => p.2.core == core)).map (fun p => p.2.cmds.map (fun c => (p.1, c)))).flatten

/-- A read by handle of an item of team `t` is in progress (R278). -/
def State.handleRead (s : State) (t item : Nat) : Bool :=
  s.teams.any (fun p => p.2.cmds.any (fun c =>
    match c.handle with
    | some (lh, idx, buf, pane) =>
      c.start ≤ s.cycle && lh == (s.team t).lh && idx == (s.team t).idx && (paneRun buf pane c.n).contains item &&
        (s.team t).shutter item == .shut
    | none => false))

/-- The team whose pane a handle names (R278). -/
def State.handleTeam (s : State) (lh idx : Nat) : Option Nat :=
  (s.launchOf lh).bind (fun l => s.slotOf l idx)

/-- A pane that a command reads by handle is not in its place: its team has been resumed and it has not come yet (file 15 R419, R421). -/
def State.handleAway (s : State) (c : Cmd) : Bool :=
  match c.handle with
  | some (lh, idx, buf, pane) =>
    match s.handleTeam lh idx with
    | some u => (s.team u).status == .bound && (paneRun buf pane c.n).any ((s.team u).away c.start)
    | none => false
  | none => false

/-- The command may be performed: earlier commands of its engine, and earlier commands and M operations that share its panes, tiles or
table slot, are done, its panes are in their places, and for an OPENP no read by handle is in progress. -/
def State.engineReady (s : State) (t : Nat) (c : Cmd) : Bool :=
  let T := s.team t
  !(T.cmds.any (fun d => d.id < c.id && d.conflicts c)) &&
    !((s.coreCmds T.core).any (fun d => d.2.id < c.id && d.2.sameEngine c)) &&
    !((s.mOps t).any (fun o => o.before ≤ c.id && c.items.any (fun i => o.writes.contains i || (o.reads T).contains i))) &&
    !(c.items.any (T.away c.issue)) && !s.handleAway c &&
    (match c.op with | .openp _ => !(c.items.any (s.handleRead t)) | _ => true)

/-- The command has started (R308, R309). -/
def State.cmdStarted (s : State) (t : Nat) (c : Cmd) : Bool := c.start < s.cycle && s.engineReady t c

/-- Entries of the D queue of a core: one frees on the cycle its command starts, and a waiting bundle issues on the cycle after
(R309). -/
def State.dQueue (s : State) (core : Nat) : Nat := ((s.coreCmds core).filter (fun p => !s.cmdStarted p.1 p.2)).length

/-- A command that waited for something until cycle `t` starts then, and completes as much later (R308). -/
def Cmd.heldTo (t : Nat) (c : Cmd) : Cmd := if c.start < t then { c with start := t, due := c.due + (t - c.start) } else c

/-- The commands of a core that waited for what ended on this cycle. -/
def State.holdCmds (s : State) (core t : Nat) (f : Nat → Cmd → Bool) : State :=
  s.forEach ((s.teams.filter (fun p => p.2.core == core)).map (·.1)) (fun s u =>
    s.updTeam u (fun T => { T with cmds := T.cmds.map (fun d => if f u d then d.heldTo t else d) }))

/-- The cycles before `t` on which a command charges its core: each fourth active cycle of its engine (R316), which had been active for
`off` cycles since its last charge. -/
def Cmd.charges (c : Cmd) (off t : Nat) : List Nat :=
  (List.range ((Nat.min t c.due - c.start + off) / 4)).map (fun j => c.start + 4 * j + 3 - off)

/-- The same by the engine's count in its core. -/
def Core.charges (K : Core) (c : Cmd) (t : Nat) : List Nat :=
  match engineOf c.op with
  | some e => c.charges (NMap.get 0 K.active e) t
  | none => []

/-- Units that the engines at work charge a core in the 256 cycles up to `t` (R316, R433). -/
def State.engineUnits (s : State) (core t : Nat) : Nat :=
  (((s.coreCmds core).filter (fun p => s.cmdStarted p.1 p.2)).map
    (fun p => (((s.core core).charges p.2 (t + 1)).filter (fun u => t < u + 256)).length)).foldl (· + ·) 0

/-- The latency of R306 of an engine's first global access, on an unloaded channel; the time of a PCIe peer is not known. -/
def State.firstAccess (s : State) (va : Nat) : Nat :=
  let asid := s.tm.asid
  match s.walk asid va with
  | .leaf pte _ _ large =>
    match targetOf (ptePA pte + (if large then va % 67108864 else va % 65536)) with
    | .dram =>
      if pteType pte ≥ 2 then 300
      else if s.cache.any (fun b => b.asid == asid && b.vblock == va / 4096 && bit b.valid (va % 4096 / 256)) then
        40 + 6 * s.distance s.cur va
      else 420
    | .ctrl _ => 300
    | _ => 0
  | _ => 0

/-- Enter the D queue (R263): the shutters of the panes named close, the tiles named are busy, and a promise, if the command bears
one, goes to its register. `rate` is the time of R308 once started; `glob`: the command's first global access, which adds its
latency and, under load, has no fixed figure. The promise counts from the promises of the commands ahead on its engine; the command itself
starts when they end. `took`: its time once started, where that is not `rate`. -/
def State.enqueueD (s : State) (c : Cmd) (closes : List Nat) (rate : Nat) (glob : Option Nat) (pr : Option Nat)
    (took : Option Nat := none) : State :=
  let t := teamOf s.cur
  let core := s.coreOf t
  if s.dQueue core ≥ 16 then s.block .stall else
  let e := (engineOf c.op).getD 4
  let after := (s.tm.cmds.filter (fun d => d.conflicts c)).map (·.due)
  let ahead := ((s.coreCmds core).filter (fun d => d.2.sameEngine c)).map (·.2.due)
  let start := ((s.cycle + 16) :: ahead ++ after).foldl Nat.max 0
  let lat := match glob with | some va => s.firstAccess va + Config.promiseDelay s.freeN | none => 0
  let p := ((s.cycle + 16) :: NMap.get 0 (s.core core).busy e :: after).foldl Nat.max 0 + rate + lat
  let due := start + took.getD rate + lat + (if glob.isSome then Config.loadDelay (s.freeN + 1) else 0)
  let c := { c with
    id := s.nextCmd, strand := s.cur, asid := s.tm.asid, issue := s.cycle, pos := s.log.length, start := start, due := due,
    promise := pr.map (fun _ => p) }
  let s : State := { s with nextCmd := s.nextCmd + 1, freeN := if glob.isSome then s.freeN + 2 else s.freeN }
  let s := if pr.isSome then s.updCore core (fun K => { K with busy := NMap.set 0 K.busy e p }) else s
  let s := s.setTm (fun T =>
    closes.foldl (fun T i => if T.shutter i == .t then T.setShutter i .cmd else T) { T with cmds := T.cmds ++ [c] })
  match pr with
  | some r => s.setA r (BitVec.ofNat 64 p)
  | none => s

/-- Bytes of the page at an address, as the translation cache or else the tables have it. -/
def State.pageSize (s : State) (asid va : Nat) : Nat :=
  match s.tlb.find? (fun e => e.covers asid va) with
  | some e => e.size
  | none => (s.pageSpan asid va).2

/-- The attributes of the page at an address and the page's base, mapped or growing (R382): those of its cached translation (file 14 R385),
else as the walk finds them. -/
def State.pageAttr (s : State) (asid va : Nat) : Option (Nat × Nat) :=
  match s.tlb.find? (fun e => e.covers asid va) with
  | some e => some (e.attr, e.base)
  | none =>
    match s.walk asid va with
    | .leaf _ attr _ large => some (attr, if large then va / 67108864 * 67108864 else va / 65536 * 65536)
    | .grow _ _ a => some (s.peekDev (a + 8192) 8, va / 65536 * 65536)
    | _ => none

/-- The tables still give what a cached translation holds. -/
def State.tlbFresh (s : State) (e : TlbEntry) : Bool :=
  match s.walk e.asid e.base with
  | .leaf leaf attr _ _ => e.leaf == leaf && e.attr == attr
  | _ => false

/-- Cached translations of an ASID that the tables no longer give may be used or not (file 14 R385): those that a command does not use
are gone before it works. -/
def State.settleTlb (s : State) (asid : Nat) : State :=
  s.forEach (s.tlb.filter (fun e => e.asid == asid && !s.tlbFresh e)) (fun s e =>
    { s with freeN := s.freeN + 1, tlb := if Config.staleCached s.freeN then s.tlb else s.tlb.filter (· != e) })

/-! ### Handles (R277, R278, R419) -/

/-- The fields of a pane handle: launch handle, core-in-launch, buffer (1 W, 2 X), pane. -/
def handleOf (h : Nat) : Nat × Nat × Nat × Nat := (bits h 32 32, bits h 24 8, 1 + bits h 10 1, bits h 0 10)

/-! ### A command at work: its reads and writes (file 03 R91, R111; R265) -/

/-- A running command: the machine, the bytes it will publish, its accesses of device pages one by one, writes to targets outside GDDR7, the
team's panes as written so far, flags, the error that stopped it (code, detail, address), and the address of an uncorrectable data error
in GDDR7. -/
structure EngRun where
  s : State
  team : Nat
  asid : Nat
  pos : Nat
  T : Team
  glob : List (Nat × Byte) := []
  dev : List (List (Nat × Byte)) := []
  out : List PcieOut := []
  flags : Flags := 0
  err : Option (Nat × Nat × Nat) := none
  bad : Option Nat := none

/-- Stop with an error. -/
def EngRun.fail (r : EngRun) (code detail addr : Nat) : EngRun :=
  if r.err.isSome then r else { r with err := some (code, detail, addr) }

/-- Go on unless an error has stopped the command. -/
def EngRun.go (r : EngRun) (f : EngRun → EngRun) : EngRun := if r.err.isSome then r else f r

/-- What an engine observes of a byte: what is published at .dev (R111). -/
def engineSees (p : Pub) : Bool := p.scope ≥ 2

/-- Bytes of GDDR7 as an engine reads them (R111): every publication at .dev before `pos` is observed; a later one may be, whole in each
aligned 8-byte word (R101). -/
def State.engineBytes (s : State) (pos pa n : Nat) : State × List Byte :=
  let touches := fun (p : Pub) => p.cells.any (fun c => pa ≤ c.1 && c.1 < pa + n)
  if !s.log.any touches then (s, NMap.getList Memory.unlisted s.mem pa n) else
  let later := (List.range s.log.length).filter (fun i => pos ≤ i && (match s.log[i]? with
    | some p => engineSees p && touches p
    | none => false))
  let at_ := fun (lim : Nat) => (List.range n).map (fun i => match lastPub engineSees (pa + i) lim s.log 0 with
    | some (_, b) => b
    | none => s.firstByte (pa + i))
  if later.isEmpty then (s, at_ pos) else
  let lims := pos :: later.map (· + 1)
  ((List.range ((pa % 8 + n + 7) / 8)).foldl (fun (r : State × List Byte) j =>
    let lim := (lims[Config.raceChoice r.1.freeN % lims.length]?).getD pos
    ({ r.1 with freeN := r.1.freeN + 1 }, r.2 ++ ((at_ lim).drop (8 * j - pa % 8)).take (if j = 0 then 8 - pa % 8 else 8))) (s, []))

/-- Bytes to the end of the unit of `u` bytes of an address, at most `n`. -/
def inUnit (u va n : Nat) : Nat := Nat.min n (u - va % u)
/-- Bytes to the end of the 64 KiB unit of an address, at most `n`. -/
def inPage (va n : Nat) : Nat := inUnit 65536 va n

/-- The bytes an engine accesses at once: a page of normal memory, or 64 bytes at a target (R91). -/
def engineUnit (pa ty va n : Nat) : Nat := if ty < 2 && targetOf pa == .dram then inPage va n else inUnit 64 va n

/-- The JCB code of a translation fault of an engine (R268). -/
def EngRun.accessFail (r : EngRun) (code va : Nat) : EngRun := r.fail code (va % 2 ^ 32) va

/-- Touch the sectors of a range in the block cache. -/
def State.touchRange (s : State) (asid va pa leaf n : Nat) (write : Bool) : State :=
  s.forEach (List.range ((va % 256 + n + 255) / 256)) (fun s i =>
    (s.touchCache asid (va / 256 * 256 + 256 * i) (pa / 256 * 256 + 256 * i) leaf write).1)

/-- Translate an access of a command; its page must have a TYPE below `lim`. -/
def EngRun.translate (r : EngRun) (lim va : Nat) (kind : AccessKind) : EngRun × Option (Nat × Nat × Nat) :=
  if va ≥ 2 ^ 56 then (r.accessFail 0x11 va, none) else
  match r.s.access (r.T.launch) r.asid 0 va kind with
  | (s, .page) => ({ r with s := s }.accessFail 0x10 va, none)
  | (s, .prot) => ({ r with s := s }.accessFail 0x11 va, none)
  | (s, .ok pa ty leaf _) => if ty < lim then ({ r with s := s }, some (pa, ty, leaf)) else ({ r with s := s }.accessFail 0x11 va, none)

/-- Read `n` bytes of global memory, unit by unit. -/
def EngRun.read (r : EngRun) (lim va n : Nat) : Nat → EngRun × List Byte
  | 0 => (r, [])
  | fuel + 1 =>
    if n = 0 || r.err.isSome then (r, []) else
    match r.translate lim va .read with
    | (r, none) => (r, [])
    | (r, some (pa, ty, leaf)) =>
      let m := engineUnit pa ty va n
      match targetOf pa with
      | .dram =>
        match r.bad.filter (fun a => va ≤ a && a < va + m) with
        | some a => ({ r with s := r.s.countUncor (if ty < 2 then r.s.storageOf r.asid a else 0) }.accessFail 0x12 a, [])
        | none =>
          let s := if ty < 2 then r.s.touchRange r.asid va pa leaf m false else r.s
          let (s, bs) := s.engineBytes (if ty < 2 then r.pos else s.log.length) pa m
          let (r, rest) := EngRun.read { r with s := s } lim (va + m) (n - m) fuel
          (r, bs ++ rest)
      | .pcie port addr =>
        let s := r.s
        let bs := (List.range m).map (fun i => Config.freeByte (s.freeN + 1 + i))
        let r' := { r with
          s := { s with freeN := s.freeN + 1 + m }
          out := r.out ++ [{ port := port, addr := addr, kind := 1, data := List.replicate m 0 }] }
        if !Config.engineReadOk s.freeN then (r'.accessFail 0x12 va, [])
        else
          let (r, rest) := EngRun.read r' lim (va + m) (n - m) fuel
          (r, bs ++ rest)
      | _ => (r.accessFail 0x11 va, [])

/-- Write bytes of global memory, unit by unit: to normal memory they are published when the command completes. A write that faults writes
none of its bytes. -/
def EngRun.write (r : EngRun) (lim va : Nat) (bs : List Byte) : Nat → EngRun
  | 0 => r
  | fuel + 1 =>
    if bs.isEmpty || r.err.isSome then r else
    match r.translate lim va .write with
    | (r, none) => r
    | (r, some (pa, ty, leaf)) =>
      let m := engineUnit pa ty va bs.length
      let cells := (List.range m).zip bs |>.map (fun p => (pa + p.1, p.2))
      let r' := match targetOf pa with
        | .dram =>
          if ty < 2 then { r with s := r.s.touchRange r.asid va pa leaf m true, glob := r.glob ++ cells }
          else { r with dev := r.dev ++ [cells] }
        | .pcie port addr => { r with out := r.out ++ [{ port := port, addr := addr, kind := 0, data := bs.take m }] }
        | _ => r.accessFail 0x11 va
      let r'' := EngRun.write r' lim (va + m) (bs.drop m) fuel
      match r''.err with
      | some _ => { r'' with glob := r.glob, dev := r.dev, out := r.out }
      | none => r''

/-- Accesses of data, and of a scale array, which must lie in normal or write-combining memory (R383). -/
def EngRun.readAt (r : EngRun) (va n : Nat) : EngRun × List Byte := r.read 4 va n (n / 64 + 3)
def EngRun.writeAt (r : EngRun) (va : Nat) (bs : List Byte) : EngRun := r.write 4 va bs (bs.length / 64 + 3)
def EngRun.readScales (r : EngRun) (va n : Nat) : EngRun × List Byte := r.read 2 va n (n / 64 + 3)
def EngRun.writeScales (r : EngRun) (va : Nat) (bs : List Byte) : EngRun := r.write 2 va bs (bs.length / 64 + 3)
def EngRun.pane (r : EngRun) (f : Team → Team) : EngRun := r.go (fun r => { r with T := f r.T })

/-- Do something for each unit, in order, until an error stops the command. -/
def EngRun.each {α : Type} (r : EngRun) (l : List α) (f : EngRun → α → EngRun) : EngRun := l.foldl (fun r x => r.go (fun r => f r x)) r

/-! ### Completion (R111, R265) -/

/-- The running operation completes (R249, R301): its results are written, its flags merged (R80), and the commands that waited for it start
on the next cycle. -/
def execMOpComplete (core : Nat) (s : State) : Result :=
  .next (match (s.core core).mrun with
    | none => s
    | some r =>
      let s := { s with cycle := Nat.max s.cycle r.done }
      let s := s.updCore core (fun K => { K with mrun := none, mfree := r.done })
      let t := teamOf r.op.strand
      let used := r.op.writes ++ r.op.reads (s.team t)
      let s := s.updTeam t (fun T => T.applyRun r)
      let s := s.holdCmds core (r.done + 1) (fun u d => u == t && r.op.before ≤ d.id && d.items.any used.contains)
      s.mergeFlags r.op.strand r.flags)

/-- M operations that waited for the command's items start on the cycle after it at the earliest (file 08 R309). -/
def State.wakeM (s : State) (t : Nat) (items : List Nat) : State :=
  s.updCore (s.coreOf t) (fun K => { K with mq := K.mq.map (fun o =>
    if teamOf o.strand == t && items.any (fun i => o.writes.contains i || (o.reads (s.team t)).contains i)
    then { o with ready := Nat.max o.ready (s.cycle + 1) } else o) })

/-- The end of a command: publications, panes and descriptors, shutters, flags, error (R111, R265), and the commands that waited for it
start (R308). Writes to device and strongly ordered pages of GDDR7 count as published at .sys (log 67). -/
def State.finishCmd (s : State) (t : Nat) (c : Cmd) (r : EngRun) : State :=
  let core := s.coreOf t
  let s := r.s.updTeam t (fun T => { T with
    pane := r.T.pane, margin := r.T.margin, desc := r.T.desc, tile := r.T.tile, tvalid := r.T.tvalid, tbl := r.T.tbl,
    shut := r.T.shut, pdisc := r.T.pdisc })
  let s := s.publishAt (.engine t) (courseOf core) core 2 false r.glob
  let s := s.forEach r.dev (fun s cells => s.publishAt (.engine t) (courseOf core) core 3 false cells)
  let s : State := { s with pcieOut := s.pcieOut ++ r.out }
  let s := s.charge core 1 (((s.core core).charges c s.cycle).filter (fun u => s.cycle < u + 256))
  let s := match engineOf c.op with
    | some e => s.updCore core (fun K => { K with active := NMap.set 0 K.active e ((NMap.get 0 K.active e + (Nat.min s.cycle c.due - c.start)) % 4) })
    | none => s
  let s := (s.endCmd t c.id []).wakeM t c.items
  let s := s.holdCmds core s.cycle (fun u d => c.id < d.id && ((u == t && c.conflicts d) || c.sameEngine d))
  let s := s.mergeFlags c.strand r.flags
  match r.err with
  | some (code, detail, addr) => s.jcbError (s.team t).launch code detail addr
  | none => s

end Sys2Proof.Machine
end

