-- ==== Sys2Proof/Machine/Copies.lean ====
section
/-! DEFINITION. What the copy, fill and row-gather engines do (file 07 R265, R269-R273; file 02 R58, R70, R72). -/

namespace Sys2Proof.Machine

/-! ### Runs of elements under a descriptor -/

/-- A stretch of a run of elements under one descriptor: its first element in the run, its length, the element's index in its page
or pane, the descriptor, and where it stands: a virtual address (with the base and the attribute dword of its page), or a pane
item. -/
structure Stretch where
  first : Nat
  len : Nat
  index : Nat
  desc : Nat
  va : Nat := 0
  base : Nat := 0
  attr : Nat := 0
  item : Option Nat := none
  /-- The walk finds the page. -/
  there : Bool := true

/-- The descriptor part of an attribute dword (R382). -/
def attrDesc (a : Nat) : Nat := bits a 0 29

/-- The stretches of a global run of `n` elements (R270): each page's own attributes govern its part. A page that the walk does
not find is taken as raw; its access faults. -/
def State.globalRun (s : State) (asid va first n : Nat) : Nat → List Stretch
  | 0 => []
  | fuel + 1 =>
    if n = 0 then [] else
    let page := s.pageAttr asid va
    let (attr, base) := page.getD (0, va / 65536 * 65536)
    let size := s.pageSize asid va
    let eb := elemBits (dFmt attr)
    let m := Nat.min n ((base + size - va) * 8 / eb)
    if m = 0 then [] else
    { first := first, len := m, index := (va - base) * 8 / eb, desc := attrDesc attr, va := va, base := base, attr := attr,
      there := page.isSome } ::
      s.globalRun asid (va + m * eb / 8) (first + m) (n - m) fuel

/-- The stretches of a run of panes, at most `n` elements. -/
def paneStretches (first n : Nat) : List (Nat × Nat) → List Stretch
  | [] => []
  | (item, d) :: r =>
    if n = 0 then [] else
    let m := Nat.min n (paneElems (dFmt d))
    { first := first, len := m, index := 0, desc := d, item := some item } :: paneStretches (first + m) (n - m) r

/-- The largest scale block and rotation block of a list of stretches (R270). -/
def blockOf (l : List Stretch) : Nat := (l.map (fun t => Nat.max (scaleLen (dSgeo t.desc)) (tagBlock (dTag t.desc)))).foldl Nat.max 1

/-- A global run starts at an element index that is a multiple of the block (R270). -/
def aligned (blk : Nat) (l : List Stretch) : Bool := l.all (fun t => t.item.isSome || t.index % blk == 0)

/-- Where the scales of element `k` of a stretch stand in its page's scale array (R58, R382). -/
def Stretch.scaleVa (t : Stretch) (k : Nat) : Nat :=
  (((t.base : Int) + 64 * attrScoff t.attr + 2 * ((t.index + k - t.first) / scaleLen (dSgeo t.desc) : Nat)) % (2 ^ 64 : Int)).toNat

/-- Read `n` elements from element `k` of a run: codes and scales. -/
def EngRun.readElems (r : EngRun) (src : Team) (t : Stretch) (k n : Nat) : EngRun × List Nat × List Nat :=
  let eb := elemBits (dFmt t.desc)
  let sl := scaleLen (dSgeo t.desc)
  let nsc := if sl = 0 then 0 else n / sl
  match t.item with
  | some i =>
    let bs := NMap.getList 0 src.pane (paneBase i + (k - t.first) * eb / 8) (n * eb / 8)
    let sc := if sl = 0 then [] else src.marginAt i (2 * ((k - t.first) / sl)) (2 * nsc)
    (r, elemsOf (dFmt t.desc) bs, (chunks 2 sc).map leNat)
  | none =>
    let (r, bs) := r.readAt (t.va + (k - t.first) * eb / 8) (n * eb / 8)
    let (r, sc) := if sl = 0 then (r, []) else r.readScales (t.scaleVa k) (2 * nsc)
    (r, elemsOf (dFmt t.desc) bs, (chunks 2 sc).map leNat)

/-- Write elements from element `k` of a run; the pane's descriptor is set when its last element is written (R265). -/
def EngRun.writeElems (r : EngRun) (t : Stretch) (k : Nat) (codes scales : List Nat) : EngRun :=
  let eb := elemBits (dFmt t.desc)
  let sl := scaleLen (dSgeo t.desc)
  let bs := bytesOf (dFmt t.desc) codes
  let sb := (scales.map (leBytes 2)).flatten
  match t.item with
  | some i => r.pane (fun T =>
      let T := { T with pane := NMap.setList 0 T.pane (paneBase i + (k - t.first) * eb / 8) bs }
      let T := if sl = 0 then T else T.setMargin i (2 * ((k - t.first) / sl)) sb
      if k + codes.length = t.first + t.len then T.setDesc i t.desc else T)
  | none =>
    if sl = 0 then r.writeAt (t.va + (k - t.first) * eb / 8) bs else
    let before := r
    let r := (r.writeAt (t.va + (k - t.first) * eb / 8) bs).writeScales (t.scaleVa k) sb
    match r.err with
    | some _ => { r with glob := before.glob, dev := before.dev, out := before.out }
    | none => r

/-- The stretch that holds an element. -/
def stretchAt (l : List Stretch) (k : Nat) : Option Stretch := l.find? (fun t => t.first ≤ k && k < t.first + t.len)

/-- Convert the elements of one block that lie in one stretch on each side (R70); a format that is reserved is a protection fault at the
access (R46), and a page that the walk does not find faults as its access does. -/
def EngRun.convertBlock (r : EngRun) (src : Team) (a b : Stretch) (k n : Nat) : EngRun :=
  let at_ := fun (t : Stretch) => t.va + (k - t.first) * elemBits (dFmt t.desc) / 8
  if !a.there then (r.readAt (at_ a) 1).1
  else if !b.there then r.writeAt (at_ b) [0]
  else if !convertible a.desc b.desc then
    (if a.item.isNone || b.item.isNone then r.accessFail 0x11 (if a.item.isNone then at_ a else at_ b)
     else r.fail 0x11 ((b.item.map itemPane).getD 0) 0)
  else
    let (r, codes, scales) := r.readElems src a k n
    r.go (fun r =>
      let (c, sc, f) := r.s.convertList a.desc b.desc codes scales
      { (r.writeElems b k c sc) with flags := r.flags ||| f })

/-- Convert a unit of elements, stretch by stretch: each page's own attributes govern its elements (R270). -/
def EngRun.convertUnit (r : EngRun) (src : Team) (ss ds : List Stretch) (k n : Nat) : Nat → EngRun
  | 0 => r
  | fuel + 1 =>
    if n = 0 || r.err.isSome then r else
    match stretchAt ss k, stretchAt ds k with
    | some a, some b =>
      let m := Nat.min n (Nat.min (a.first + a.len - k) (b.first + b.len - k))
      (r.convertBlock src a b k m).convertUnit src ss ds (k + m) (n - m) fuel
    | _, _ => r

/-- A converting copy of a whole run in ascending order (R265, R270): block by block, or 256 bytes of the destination at a time; a unit that
faults is unchanged. -/
def EngRun.convertRun (r : EngRun) (src : Team) (ss ds : List Stretch) (n : Nat) : EngRun :=
  let blk := Nat.max (blockOf ss) (blockOf ds)
  let eb := ((ds.head?.map (fun t => elemBits (dFmt t.desc))).getD 8)
  let u := if blk ≤ 1 then 2048 / eb else blk
  r.each (List.range ((n + u - 1) / u)) (fun r j =>
    let r' := r.convertUnit src ss ds (u * j) (Nat.min u (n - u * j)) 4
    if r'.err.isSome then { r' with T := r.T, glob := r.glob, dev := r.dev, out := r.out } else r')

/-- The descriptor pairs of elements that a run converts, where both are known. -/
def pairsOf (ss ds : List Stretch) : List (Nat × Nat) :=
  ((ss.filter (·.there)).map (fun a =>
    (ds.filter (fun b => b.there && a.first < b.first + b.len && b.first < a.first + a.len)).map (fun b => (a.desc, b.desc)))).flatten

/-- No conversion path (R70): both descriptors are legal, and no row of the table joins them; a pair without a row has no path (log 124). -/
def noPath (p : Nat × Nat) : Bool := legalDesc p.1 && legalDesc p.2 && !convertible p.1 p.2

/-- A run of a converting copy: the stretches of its source and destination, and its elements. -/
abbrev CopyJob := List Stretch × List Stretch × Nat

/-- The runs of one converting copy are at block boundaries, or error 0x15 and nothing is changed (R270); nor is it changed where a pair has
no conversion path (R70), error 0x11 (log 130). -/
def EngRun.convertRuns (r : EngRun) (src : Team) (pane : Nat) (jobs : List CopyJob) : EngRun :=
  if jobs.any (fun j => let blk := Nat.max (blockOf j.1) (blockOf j.2.1); !(aligned blk j.1 && aligned blk j.2.1)) then r.fail 0x15 pane 0
  else if jobs.any (fun j => (pairsOf j.1 j.2.1).any noPath) then r.fail 0x11 pane 0
  else r.each jobs (fun r j => r.convertRun src j.1 j.2.1 j.2.2)

/-! ### DCOPY (R269) -/

/-- Bytes of a tile, row-major (R86); a void tile reads zero. -/
def Team.tileBytes (T : Team) (t off n : Nat) : List Byte :=
  if NMap.get false T.tvalid t then
    ((NMap.getList 0 T.tile (4096 * t + off / 4) (n / 4)).map (fun w => leBytes 4 w.toNat)).flatten
  else List.replicate n 0

/-- Write bytes of a tile: the first write clears its void flag (R250). -/
def Team.setTileBytes (T : Team) (t off : Nat) (bs : List Byte) : Team :=
  { T with
    tile := NMap.setList 0 T.tile (4096 * t + off / 4) ((chunks 4 bs).map (fun w => BitVec.ofNat 32 (leNat w)))
    tvalid := NMap.set false T.tvalid t true }

/-- A copy whose source and destination are both scratchpad panes with no conversion: bits, margins and descriptors (R269). -/
def EngRun.copyPanes (r : EngRun) (src : Team) (ss ds : List Nat) : EngRun :=
  r.pane (fun T => (ss.zip ds).foldl (fun T p =>
    (({ T with pane := NMap.setList 0 T.pane (paneBase p.2) (NMap.getList 0 src.pane (paneBase p.1) 4096) }).setMargin p.2 0
      (src.marginAt p.1 0 512)).setDesc p.2 (src.descOf p.1)) T)

/-- The total of the elements of some panes. -/
def sumElems (l : List (Nat × Nat)) : Nat := (l.map (fun p => paneElems (dFmt p.2))).foldl (· + ·) 0

/-- The runs of a DCOPY that converts (R269, R270): `srcs` are its source panes and their descriptors, where they are panes. -/
def State.copyJobs (s : State) (asid : Nat) (o : OpDE) (src dst dd : Nat) (srcs : List (Nat × Nat)) : List CopyJob :=
  let n := o.np + 1
  let ds := deItems o.dsp dst n
  let glob := fun (va m : Nat) => s.globalRun asid va 0 m 40
  if o.ssp = 3 || o.dsp = 3 || (o.ssp = 0 && o.dsp = 0) then []
  else if o.ssp = 0 && o.mod = 0 then
    (List.range n).zip ds |>.map (fun p =>
      let va := src + 4096 * p.1
      let d := attrDesc ((s.pageAttr asid va).map (·.1) |>.getD 0)
      let m := paneElems (dFmt d)
      (glob va m, paneStretches 0 m [(p.2, d)], m))
  else if o.ssp = 0 then
    let m := n * paneElems (dFmt dd)
    [(glob src m, paneStretches 0 m (ds.map (fun i => (i, dd))), m)]
  else if o.dsp = 0 then
    let m := sumElems srcs
    [(paneStretches 0 m srcs, glob dst m, m)]
  else if o.mod = 0 then []
  else
    let m := Nat.min (sumElems srcs) (n * paneElems (dFmt dd))
    [(paneStretches 0 m srcs, paneStretches 0 m (ds.map (fun i => (i, dd))), m)]

/-- DCOPY by its spaces (R269, R270). `ss`: the source panes; `owner`: the team they belong to. -/
def EngRun.dcopy (r : EngRun) (o : OpDE) (c : Cmd) (owner : Team) (ss : List Nat) : EngRun :=
  let n := o.np + 1
  let ds := deItems o.dsp c.dst n
  let first := ((if scratch o.dsp then ds else ss).head?.map itemPane).getD 0
  if o.ssp = 0 && o.dsp = 0 then
    r.each (List.range (16 * n)) (fun r j =>
      let (r, bs) := r.readAt (c.src + 256 * j) 256
      r.go (fun r => r.writeAt (c.dst + 256 * j) bs))
  else if o.dsp = 3 then
    r.each (List.range (64 * n)) (fun r j =>
      let (r, bs) := r.readAt (c.src + 256 * j) 256
      r.pane (fun T => T.setTileBytes (c.dst + j / 64) (256 * (j % 64)) bs))
  else if o.ssp = 3 then
    r.each (List.range (64 * n)) (fun r j => r.writeAt (c.dst + 256 * j) (owner.tileBytes (c.src + j / 64) (256 * (j % 64)) 256))
  else if o.ssp != 0 && o.dsp != 0 && o.mod = 0 then r.copyPanes owner ss ds
  else r.convertRuns owner first (r.s.copyJobs r.asid o c.src c.dst (bits c.aux.toNat 0 29) (ss.map (fun i => (i, owner.descOf i))))

/-! ### DCOPY2 and DGATH (R271, R272) -/

/-- The geometry register (R271): stride, rows, bytes per row. -/
def geomStride (g : Nat) : Int := sextInt 32 (bits g 32 32)
def geomRows (g : Nat) : Nat := bits g 16 16
def geomRowb (g : Nat) : Nat := bits g 0 16

/-- The geometry that R271 makes an illegal encoding. -/
def badGeom (g np : Nat) : Bool :=
  geomRowb g = 0 || geomRowb g % 64 != 0 || geomRows g = 0 || geomRows g * geomRowb g > np * 4096

/-- The address of row number `k`. -/
def rowVa (base : Nat) (stride : Int) (k : Nat) : Nat := (((base : Int) + stride * k) % (2 ^ 64 : Int)).toNat

/-- A row lies on block boundaries of its page: element index and length. -/
def rowOnBlocks (attr base va rowb blk : Nat) : Bool :=
  let eb := elemBits (dFmt attr)
  blk = 0 || ((va - base) * 8 / eb % blk == 0 && rowb * 8 / eb % blk == 0)

/-- Bytes of a run of panes, from byte `off` of the run. -/
def Team.runBytes (T : Team) (buf pane off n : Nat) : List Byte := T.bytesAt buf (4096 * pane + off) n

/-- Panes that a packed run of `len` bytes fills whole, or touches with its last bytes when the run is complete. -/
def donePanes (whole : Bool) (len : Nat) : Nat := if whole then (len + 4095) / 4096 else len / 4096

/-- Give the panes of a packed run their descriptor (R265). -/
def EngRun.setDescs (r : EngRun) (buf pane n d : Nat) : EngRun :=
  { r with T := (paneRun buf pane n).foldl (fun T i => T.setDesc i d) r.T }

/-- The parts of a row of `n` bytes by page: the attribute dword and the base of its page, its address, its length. -/
def State.rowParts (s : State) (asid va n : Nat) : Nat → List (Option (Nat × Nat) × Nat × Nat)
  | 0 => []
  | fuel + 1 =>
    if n = 0 then [] else
    let m := inPage va n
    (s.pageAttr asid va, va, m) :: s.rowParts asid (va + m) (n - m) fuel

/-- A row of `n` bytes, of which some part fails a test of its page's attributes, the page's base, its address and its length. -/
def State.badRow (s : State) (asid va n : Nat) (test : Nat → Nat → Nat → Nat → Bool) : Bool :=
  (s.rowParts asid va n 3).any (fun p => match p.1 with
    | some (a, b) => test a b p.2.1 p.2.2
    | none => false)

/-- DCOPY2 (R271): rows in ascending order of their destination (R265). -/
def EngRun.dcopy2 (r : EngRun) (o : OpDE) (c : Cmd) : EngRun :=
  let g := c.aux.toNat
  let rb := geomRowb g
  let into := o.ssp = 0
  let buf := if into then o.dsp else o.ssp
  let pane := paneAt (if into then c.dst else c.src)
  let base := if into then c.src else c.dst
  let vas := (List.range (geomRows g)).map (rowVa base (geomStride g))
  match vas.find? (fun va => r.s.badRow r.asid va rb (fun a b v m => dSgeo a != 0 || !rowOnBlocks a b v m (tagBlock (dTag a)))) with
  | some va => r.fail 0x15 pane va
  | none =>
    let T0 := r.T
    let rows := (List.range vas.length).zip vas
    let (r, done) := (if !into && geomStride g < 0 then rows.reverse else rows).foldl (fun (q : EngRun × Nat) p =>
      if q.1.err.isSome then q else
      if into then
        let (r, bs) := q.1.readAt p.2 rb
        if r.err.isSome then (r, q.2) else (r.pane (fun T => T.setBytes buf (4096 * pane + rb * p.1) bs), q.2 + 1)
      else
        let r := q.1.writeAt p.2 (T0.runBytes buf pane (rb * p.1) rb)
        (r, q.2 + 1)) (r, 0)
    if into then
      let d := match r.s.pageAttr r.asid base with
        | some (a, _) => mkDesc (dFmt a) 0 (dTag a) (dCb a)
        | none => 0
      if dFmt d > 8 && done > 0 then { (r.accessFail 0x11 base) with T := T0 }
      else r.setDescs buf pane (donePanes r.err.isNone (rb * done)) d
    else r

/-- The data and the scales of a row, each page's part with that page's scales (R58, R272). -/
def EngRun.gatherRow (r : EngRun) (d va rb : Nat) : EngRun × List Byte × List Byte :=
  let (r, bs) := r.readAt va rb
  let sl := scaleLen (dSgeo d)
  if sl = 0 then (r, bs, []) else
  let (r, sc) := (r.s.rowParts r.asid va rb 3).foldl (fun (q : EngRun × List Byte) p =>
    let (a, b) := p.1.getD (0, 0)
    let ne := p.2.2 * 8 / elemBits (dFmt d)
    let t : Stretch := { first := 0, len := ne, index := (p.2.1 - b) * 8 / elemBits (dFmt d), desc := d, va := p.2.1, base := b, attr := a }
    let (r, sc) := q.1.readScales (t.scaleVa 0) (2 * (ne / sl))
    (r, q.2 ++ sc)) (r, [])
  (r, bs, sc)

/-- DGATH (R272). -/
def EngRun.dgath (r : EngRun) (c : Cmd) : EngRun :=
  let g := c.aux2.toNat
  let rb := geomRowb g
  let pane := paneAt c.dst
  -- the indices, read one by one: a fault stops at its row
  let (r1, vas) := (List.range (geomRows g)).foldl (fun (q : EngRun × List Nat) j =>
    if q.1.err.isSome then q else
    let (r, bs) := q.1.readAt ((c.aux.toNat + 4 * j) % 2 ^ 64) 4
    if r.err.isSome then (r, q.2) else (r, q.2 ++ [rowVa c.src (geomStride g) (leNat bs)])) (r, [])
  let a0 := ((vas.head?.bind (r1.s.pageAttr r.asid)).map (·.1)).getD 0
  let test := fun (a b v m : Nat) =>
    attrDesc a != attrDesc a0 || !rowOnBlocks a b v m (scaleLen (dSgeo a)) || !rowOnBlocks a b v m (tagBlock (dTag a))
  match vas.find? (fun va => r1.s.badRow r.asid va rb test) with
  | some va => { r1 with err := none }.fail 0x15 pane va
  | none =>
    let stop := r1.err
    let r1 := { r1 with err := none }
    if !legalDesc (attrDesc a0) then r1.accessFail 0x11 (vas.headD c.src) else
    let sl := scaleLen (dSgeo a0)
    let ne := rb * 8 / elemBits (dFmt a0)
    let per := paneElems (dFmt a0)
    let (r2, done) := ((List.range vas.length).zip vas).foldl (fun (q : EngRun × Nat) p =>
      if q.1.err.isSome then q else
      let (r, bs, sc) := q.1.gatherRow (attrDesc a0) p.2 rb
      if r.err.isSome then (r, q.2) else
      (r.pane (fun T =>
        let T := T.setBytes 2 (4096 * pane + rb * p.1) bs
        ((List.range (ne / (if sl = 0 then ne + 1 else sl))).zip (chunks 2 sc)).foldl (fun T x =>
          let e := p.1 * ne + x.1 * sl
          T.setMargin (paneItem 2 (pane + e / per)) (2 * (e % per / sl)) x.2) T), q.2 + 1)) (r1, 0)
    let r3 := match r2.err, stop with
      | none, some e => { r2 with err := some e }
      | _, _ => r2
    r3.setDescs 2 pane (donePanes r3.err.isNone (rb * done)) (attrDesc a0)

/-! ### DFILL (R273) -/

/-- `n` bytes of a repeated 64-bit pattern. -/
def patternBytes (w : Word) (n : Nat) : List Byte := (List.replicate (n / 8) (leBytes 8 w.toNat)).flatten

def EngRun.dfill (r : EngRun) (o : OpDE) (c : Cmd) : EngRun :=
  let n := o.np + 1
  if o.dsp = 0 then r.each (List.range (16 * n)) (fun r j => r.writeAt (c.dst + 256 * j) (patternBytes c.aux 256))
  else if o.dsp = 3 then
    r.pane (fun T => (List.range n).foldl (fun T i => T.setTileBytes (c.dst + i) 0 (patternBytes c.aux 16384)) T)
  else
    r.pane (fun T => (deItems o.dsp c.dst n).foldl (fun T i =>
      let T := ({ T with pane := NMap.setList 0 T.pane (paneBase i) (patternBytes c.aux 4096) }).setMargin i 0 (List.replicate 512 0)
      if o.mod = 1 then T.setDesc i (bits c.aux2.toNat 0 29) else T) T)

end Sys2Proof.Machine
end

