-- ==== Sys2Proof/Machine/EngineIssue.lean ====
section
/-! DEFINITION. The engine instructions of the D slot (file 07 R269-R278): issue, the table engine, SHUT and OPENP, and the completion
of a command. -/

namespace Sys2Proof.Machine

/-! ### Tables (R274, R275) -/

/-- A table header that R274 refuses, from its 32 bytes. -/
def badTable (bs : List Byte) : Bool :=
  let f := fun (o n : Nat) => leNat ((bs.drop o).take n)
  let sh := sextInt 8 (f 4 1)
  f 6 2 ≥ 256 || f 5 1 % 4 == 3 || f 5 1 / 4 % 4 == 3 || sh < -32 || sh > 32 || !(fp32.decode (f 0 4)).finite ||
    f 5 1 / 16 != 0 || (bs.drop 16).any (· != 0)

/-- The table an image describes. -/
def tableOf (hd ents : List Byte) : Table :=
  let f := fun (o n : Nat) => leNat ((hd.drop o).take n)
  { x0 := f 0 4, sh := sextInt 8 (f 4 1), lomode := f 5 1 % 4, himode := f 5 1 / 4 % 4, clo := f 8 4, chi := f 12 4,
    segs := (chunks 8 ents).map (fun e => (leNat (e.take 4), leNat (e.drop 4))) }

def EngRun.setTable (r : EngRun) (k : Nat) (t : Option Table) : EngRun := { r with T := { r.T with tbl := NMap.set none r.T.tbl k t } }

/-- DTBLLD (R274): any failure leaves the slot empty. -/
def EngRun.dtblld (r : EngRun) (o : OpDR) (c : Cmd) : EngRun :=
  let r := r.setTable (o.sub % 4) none
  let (r, hd) := r.readAt c.src 32
  r.go (fun r =>
    if badTable hd then r.fail 0x16 0 0 else
    let (r, ents) := r.readAt (c.src + 32) (8 * (leNat ((hd.drop 6).take 2) + 1))
    r.go (fun r => r.setTable (o.sub % 4) (some (tableOf hd ents))))

/-- x · 2^k, exact. -/
def FVal.scale2 (v : FVal) (k : Int) : FVal :=
  match v with
  | .num s n d => if k ≥ 0 then .num s (n * 2 ^ k.toNat) d else .num s n (d * 2 ^ (-k).toNat)
  | v => v

/-- A_s + (t − s) S_s, rounded once. -/
def Table.line (T : Table) (fmt : FFormat) (i : Nat) (t : FVal) : Nat × Flags :=
  let e := T.segs.getD i (0, 0)
  fmt.result ((t.sub (ofInt i)).1.fma (fp32.decode e.2) (fp32.decode e.1))

/-- The edge rules of R275. -/
def Table.edge (T : Table) (fmt : FFormat) (mode c i : Nat) (x t : FVal) : Nat × Flags :=
  if mode = 0 then fmt.round (fp32.decode c) else if mode = 1 then fmt.round x else T.line fmt i t

/-- One element (R275). -/
def Table.eval (T : Table) (fmt : FFormat) (x : FVal) : Nat × Flags :=
  match x with
  | .nan sg => fmt.round (.nan sg)
  | x =>
    let t := (x.sub (fp32.decode T.x0)).1.scale2 T.sh
    let n := T.segs.length
    if t.lt (.num false 0 1) then T.edge fmt T.lomode T.clo 0 x t
    else if !t.lt (ofInt n) then T.edge fmt T.himode T.chi (n - 1) x t
    else match t with
      | .num _ a d => T.line fmt (a / d) t
      | _ => (0, 0)

/-- DTBL (R275). The conditions of error 0x16 come before the count (log 129). -/
def EngRun.dtbl (r : EngRun) (o : OpDE) (c : Cmd) : EngRun :=
  let np := o.np + 1
  let cnt := bits c.aux.toNat 0 32
  let e0 := bits c.aux.toNat 32 32
  let ss := deItems 2 c.src np
  let ds := deItems 2 c.dst np
  let first := (ds.head?.map itemPane).getD 0
  let sf := dFmt (r.T.descOf (ss.headD 0))
  let ofmt := if bit o.aux2 2 then 1 else 2
  let per := paneElems ofmt
  match NMap.get none r.T.tbl (o.aux2 % 4) with
  | none => r.fail 0x16 first 0
  | some tab =>
    if !(sf = 1 || sf = 2) || ss.any (fun i => dFmt (r.T.descOf i) != sf || dTag (r.T.descOf i) != 0) then r.fail 0x16 first 0
    else if cnt = 0 then r
    else if e0 + cnt > np * paneElems sf || e0 + cnt > np * per then r.fail 0x15 first 0
    else
      let eb := elemBits sf / 8
      let xs := elemsOf sf (NMap.getList 0 r.T.pane (paneBase (ss.headD 0) + e0 * eb) (cnt * eb))
      let (ys, f) := mapFlags (fun c => tab.eval (if ofmt = 1 then fp32 else bf16) (codeValue sf [] c)) xs
      let ob := elemBits ofmt / 8
      { r with
        flags := r.flags ||| f
        T := (ds.filter (fun i => e0 / per ≤ i - ds.headD 0 && i - ds.headD 0 ≤ (e0 + cnt - 1) / per)).foldl
          (fun T i => T.setDesc i (mkDesc ofmt 0 0 0))
          { r.T with pane := NMap.setList 0 r.T.pane (paneBase (ds.headD 0) + e0 * ob) ((ys.map (leBytes ob)).flatten) } }

/-! ### Issue (R263, R264, R308) -/

/-- Time of `n` panes between scratchpad and global memory, by the descriptors of the global and the scratchpad side (R308). -/
def copyRate (n glob pane : Nat) : Nat :=
  if glob = pane || !legalDesc glob || !legalDesc pane then 16 * n
  else
    let m := if tagEq (dTag glob) (dTag pane) then 0 else Nat.max (tagBlock (dTag glob)) (tagBlock (dTag pane))
    if m = 256 then 18 * n else if m != 0 then 12 * n
    else (n * paneElems (dFmt pane) * elemBits (dFmt glob) + 2047) / 2048

/-- Time of a DCOPY once started (R308): between a pane and global memory each pane counts by its own descriptor and its page's (R270);
`pairs` are those known, source first. -/
def dcopyRate (ssp dsp n : Nat) (pairs : List (Nat × Nat)) : Nat :=
  if ssp = 3 || dsp = 3 then 64 * n
  else if ssp = 0 && dsp = 0 then 16 * n
  else if ssp != 0 && dsp != 0 then 9 * n
  else ((List.range n).map (fun i =>
    let p := pairs.getD i (0, 0)
    if ssp = 0 then copyRate 1 p.1 p.2 else copyRate 1 p.2 p.1)).foldl (· + ·) 0

/-- The runs of a DCOPY as far as they are known at issue (R70): over mapped pages, and open panes in the quota, whose descriptors a queued
M operation has set when it retired (R72). -/
def State.knownRuns (s : State) (o : OpDE) (src dst dd : Nat) : List (List Stretch × List Stretch) :=
  let known := fun (i : Nat) => itemPane i < s.rt.panes o.ssp && s.rt.shutter i == .t
  let srcs := if scratch o.ssp && !byHandle o then
    ((deItems o.ssp src (o.np + 1)).takeWhile known).map (fun i => (i, s.rt.descOf i)) else []
  (s.copyJobs s.tm.asid o src dst dd srcs).map (fun j => (j.1, j.2.1))

/-- The descriptor pairs that they convert. -/
def knownPairs (runs : List (List Stretch × List Stretch)) : List (Nat × Nat) := (runs.map (fun j => pairsOf j.1 j.2)).flatten

/-- The descriptors of each pane of a run with global memory and of the page at its first element: source, destination. -/
def panePairs (runs : List (List Stretch × List Stretch)) : List (Nat × Nat) :=
  (runs.map (fun j =>
    let (panes, globs) := if j.1.any (·.item.isSome) then (j.1, j.2) else (j.2, j.1)
    panes.map (fun t =>
      let g := ((globs.filter (·.there)).find? (fun u => u.first ≤ t.first && t.first < u.first + u.len)).map (·.desc) |>.getD t.desc
      if j.1.any (·.item.isSome) then (t.desc, g) else (g, t.desc)))).flatten

def execDcopy (o : OpDE) (s : State) : Result :=
  .next (s.guarded o.g (fun s =>
    let n := o.np + 1
    let src := if byHandle o then (s.aR (o.src % 64)).toNat else s.deArg 0 o.ssp o.src
    let dst := s.deArg 1 o.dsp o.dst
    let aux := s.aR o.aux
    let dd := bits aux.toNat 0 29
    let runs := s.knownRuns o src dst dd
    let pairs := knownPairs runs
    let checks := globalAlign o.ssp src ++ (if byHandle o then [] else s.deChecks o.ssp src n) ++ globalAlign o.dsp dst ++ s.deChecks o.dsp dst n ++
      s.regCheck ((o.mod == 1 && badDescReg (bits aux.toNat 0 32)) || pairs.any noPath)
    let ds := deItems o.dsp dst n
    let ss := if byHandle o then [] else deItems o.ssp src n
    let cmd : Cmd := { id := 0, strand := s.cur, op := .dcopy o, src := src, dst := dst, aux := aux, n := n, items := ss ++ ds.filter (fun i => !ss.contains i),
                       handle := if byHandle o then some (handleOf src) else none }
    s.checked checks (fun s =>
      s.enqueueD cmd (cmd.items.filter (fun i => 32 ≤ i)) (dcopyRate o.ssp o.dsp n (panePairs runs)) (if o.ssp == 0 then some src else if o.dsp == 0 then some dst else none)
        (some o.pr))))

def execDcopy2 (o : OpDE) (s : State) : Result :=
  .next (s.guarded o.g (fun s =>
    let n := o.np + 1
    let src := s.deArg 0 o.ssp o.src
    let dst := s.deArg 1 o.dsp o.dst
    let g := s.aR o.aux
    let items := deItems o.ssp src n ++ deItems o.dsp dst n
    let cmd : Cmd := { id := 0, strand := s.cur, op := .dcopy2 o, src := src, dst := dst, aux := g, n := n, items := items }
    s.checked (s.deChecks o.ssp src n ++ s.deChecks o.dsp dst n ++ s.regCheck (badGeom g.toNat n)) (fun s =>
      s.enqueueD cmd items ((geomRows g.toNat * geomRowb g.toNat + 255) / 256) (some (if o.ssp = 0 then src else dst)) (some o.pr))))

def execDgath (o : OpDE) (s : State) : Result :=
  .next (s.guarded o.g (fun s =>
    let n := o.np + 1
    let dst := s.deArg 1 2 o.dst
    let g := s.aR o.aux2
    let cmd : Cmd := { id := 0, strand := s.cur, op := .dgath o, src := s.deArg 0 0 o.src, dst := dst, aux := s.aR o.aux, aux2 := g, n := n,
                       items := deItems 2 dst n }
    s.checked (s.deChecks 2 dst n ++ s.regCheck (badGeom g.toNat n)) (fun s =>
      s.enqueueD cmd cmd.items (geomRows g.toNat * 2 + (geomRows g.toNat * geomRowb g.toNat + 255) / 256) (some cmd.aux.toNat)
        (some o.pr))))

def execDfill (o : OpDE) (s : State) : Result :=
  .next (s.guarded o.g (fun s =>
    let n := o.np + 1
    let dst := s.deArg 1 o.dsp o.dst
    let d := s.aR o.aux2
    let cmd : Cmd := { id := 0, strand := s.cur, op := .dfill o, dst := dst, aux := s.aR o.aux, aux2 := d, n := n, items := deItems o.dsp dst n }
    s.checked (globalAlign o.dsp dst ++ s.deChecks o.dsp dst n ++ s.regCheck (o.mod == 1 && badDescReg (bits d.toNat 0 32))) (fun s =>
      s.enqueueD cmd (cmd.items.filter (fun i => 32 ≤ i)) (if o.dsp = 0 then 8 * n else if o.dsp = 3 then 32 * n else 9 * n)
        (if o.dsp = 0 then some dst else none) (some o.pr))))

def execDtbl (o : OpDE) (s : State) : Result :=
  .next (s.guarded o.g (fun s =>
    let n := o.np + 1
    let src := s.deArg 0 2 o.src
    let dst := s.deArg 1 2 o.dst
    let items := deItems 2 src n ++ (deItems 2 dst n).filter (fun i => !(deItems 2 src n).contains i)
    let aux := s.aR o.aux
    let cmd : Cmd := { id := 0, strand := s.cur, op := .dtbl o, src := src, dst := dst, aux := aux, n := n, items := items }
    s.checked (s.deChecks 2 src n ++ s.deChecks 2 dst n) (fun s =>
      s.enqueueD cmd items ((bits aux.toNat 0 32 + 31) / 32) none (some o.pr))))

/-- The time of a table load once started (R308): 8 + N/4 cycles, by the N that memory holds. -/
def State.tableTime (s : State) (asid va : Nat) : Nat :=
  match s.walk asid va with
  | .leaf pte _ _ large =>
    8 + (Nat.min 255 (s.peek (ptePA pte + (if large then va % 67108864 else va % 65536) + 6) 2) + 4) / 4
  | _ => 8

/-- R274: the promise counts 256 segments. -/
def execDtblld (o : OpDR) (s : State) : Result :=
  .next (s.guarded o.g (fun s =>
    let a := s.aR o.ra
    let cmd : Cmd := { id := 0, strand := s.cur, op := .dtblld o, src := a.toNat }
    s.checked (if a.toNat % 32 != 0 then [.trap (misaligned a)] else []) (fun s =>
      s.enqueueD cmd [] 72 (some a.toNat) (some o.rd) (some (s.tableTime s.tm.asid a.toNat)))))

/-- A command on a range of the block cache (R276). -/
def State.rangeCmd (s : State) (i : Instr) (o : OpDR) : State :=
  s.enqueueD { id := 0, strand := s.cur, op := i, src := s.addr 0 (s.aR o.ra).toNat, aux := s.aR o.rb } [] 0 none none

def execDpref (o : OpDR) (s : State) : Result := .next (s.guarded o.g (fun s => s.rangeCmd (.dpref o) o))
def execDflush (o : OpDR) (s : State) : Result := .next (s.guarded o.g (fun s => s.rangeCmd (.dflush o) o))

/-! ### SHUT and OPENP (R112, R277) -/

/-- The handle of a pane of a team. -/
def Team.handleFor (T : Team) (buf pane : Nat) : Nat := T.lh % 2 ^ 32 * 2 ^ 32 + T.idx % 256 * 2 ^ 24 + (buf - 1) * 1024 + pane % 1024

def execShut (o : OpDE) (s : State) : Result :=
  .next (s.guarded o.g (fun s =>
    let n := o.np + 1
    let a := s.deArg 1 o.dsp o.dst
    s.checked (s.deChecks o.dsp a n) (fun s =>
      (s.setTm (fun T => (deItems o.dsp a n).foldl (fun T i => T.setShutter i .shut) T)).setA o.pr
        (BitVec.ofNat 64 (s.tm.handleFor o.dsp (paneAt a))))))

/-- A pane that has not come back yet after a resume keeps its marks until it has: they say whether it comes from its slot (file 15
R420, R421). -/
def State.placeCheck (s : State) (i : Nat) : Check := if s.rt.absent i then .wait (.place i) else .ok

/-- The effect of OPENP on one pane: mode 1 sets the discard mark, mode 2 clears it. -/
def Team.openPane (mode : Nat) (T : Team) (i : Nat) : Team :=
  let T := T.setShutter i (if T.named i then .cmd else .t)
  if mode = 1 then { T with pdisc := NMap.set false T.pdisc i true }
  else if mode = 2 then { T with pdisc := NMap.set false T.pdisc i false } else T

def execOpenp (o : OpDE) (s : State) : Result :=
  .next (s.guarded o.g (fun s =>
    let n := o.np + 1
    let a := s.deArg 1 o.dsp o.dst
    let items := deItems o.dsp a n
    s.checked (s.paneArgCheck o.dsp a n ++ items.map s.placeCheck) (fun s =>
      if items.any (fun i => s.tm.named i || s.handleRead (teamOf s.cur) i) then
        s.enqueueD { id := 0, strand := s.cur, op := .openp o, dst := a, n := n, items := items } [] 0 none none
      else s.setTm (fun T => items.foldl (Team.openPane o.aux2) T))))

/-! ### ENGINE_COMPLETION (R111, R265) -/

/-- DPREF fetches the sectors of a range below 2^56 (R276); it never faults, and pages it cannot translate are skipped. -/
def State.prefetch (s : State) (asid va n : Nat) : State :=
  let hi := Nat.min (va + n) (2 ^ 56)
  s.forEach (List.range (if hi ≤ va then 0 else (va % 256 + (hi - va) + 255) / 256)) (fun s i =>
    let a := va / 256 * 256 + 256 * i
    match s.walk asid a with
    | .leaf pte _ _ large =>
      if pteType pte < 2 && targetOf (ptePA pte) == .dram then
        (s.touchCache asid a (ptePA pte + (if large then a % 67108864 else a % 65536)) pte false).1
      else s
    | _ => s)

/-- DFLUSH writes back the sectors of a range that the block cache holds, and drops them unless they are kept (R276). -/
def State.flushRange (s : State) (asid va n : Nat) (keep : Bool) : State :=
  { s with cache := (s.cache.map (fun b =>
      if b.asid != asid then b else
      let hit := (List.range 16).filter (fun j => va < b.vblock * 4096 + 256 * j + 256 && b.vblock * 4096 + 256 * j < va + n)
      let m := (hit.map (fun j => 2 ^ j)).foldl (· + ·) 0
      { b with dirty := b.dirty &&& (65535 - m), valid := if keep then b.valid else b.valid &&& (65535 - m) })).filter (fun b => b.valid != 0) }

/-- DPREF and DFLUSH (R276): a DFLUSH posts the error of the first page of its range that it cannot reach (R304). -/
def EngRun.rangeOp (r : EngRun) (o : OpDR) (c : Cmd) (pref : Bool) : EngRun :=
  let n := c.aux.toNat
  if pref then { r with s := r.s.prefetch r.asid c.src n }
  else if n = 0 then r
  else
    let s' := r.s.flushRange r.asid c.src n (o.sub == 1)
    { r with s := s' }.each (List.range ((c.src % 65536 + n + 65535) / 65536)) (fun r i =>
      let va := if i = 0 then c.src else c.src / 65536 * 65536 + 65536 * i
      if va ≥ 2 ^ 56 then r.accessFail 0x11 va else
      match r.s.walk r.asid va with
      | .page => r.accessFail 0x10 va
      | .prot => r.accessFail 0x11 va
      | _ => r)

/-- The source panes of a DCOPY: the team's own, or those of a handle, which must be closed by SHUT in a bound launch, or have been
so when the read began (R278, R419). -/
def State.dcopySource (s : State) (t : Nat) (o : OpDE) (c : Cmd) : Option (Team × List Nat) :=
  match c.handle with
  | none => some (s.team t, deItems o.ssp c.src c.n)
  | some (lh, idx, buf, pane) =>
    match s.handleTeam lh idx with
    | none => none
    | some u =>
      let U := s.team u
      let items := paneRun buf pane c.n
      let there := U.status == .bound ||
        ((U.status == .saved || U.status == .loading) && c.start ≤ U.since && items.all (fun i => U.toSpill.contains i))
      if there && pane + c.n ≤ U.panes buf && items.all (fun i => U.shutter i == .shut) then some (U, items) else none

/-- What a command does. -/
def EngRun.perform (r : EngRun) (c : Cmd) : EngRun :=
  match c.op with
  | .dcopy o =>
    (match r.s.dcopySource r.team o c with
     | some (U, ss) => r.dcopy o c U ss
     | none => r.fail 0x11 ((c.handle.map (fun h => h.2.2.2)).getD 0) 0)
  | .dcopy2 o => r.dcopy2 o c
  | .dgath _ => r.dgath c
  | .dfill o => r.dfill o c
  | .dtbl o => r.dtbl o c
  | .dtblld o => r.dtblld o c
  | .dpref o => r.rangeOp o c true
  | .dflush o => r.rangeOp o c false
  | .openp o =>
    -- the panes this command names are free of it
    r.pane (fun T =>
      let T' := (c.items).foldl (Team.openPane o.aux2) { T with cmds := T.cmds.filter (·.id != c.id) }
      { T' with cmds := T.cmds })
  | _ => r

/-- The pair commands of the ring complete with their pair. -/
def Cmd.isRing (c : Cmd) : Bool := c.ring.isSome

/-- R111, R265; `e.bad`: the address of an uncorrectable data error in GDDR7 (R268). -/
def execEngineCompletion (team : Nat) (e : EngineEnd) (s : State) : Result :=
  .next (match (s.team team).cmds.find? (fun c => c.id == e.cmd) with
    | none => s
    | some c =>
      if c.isRing || !s.engineReady team c then s else
      let s := { s with cycle := Nat.max s.cycle c.due }
      let s := s.settleTlb c.asid
      s.finishCmd team c (EngRun.perform { s := s, team := team, asid := c.asid, pos := c.pos, T := s.team team, bad := e.bad } c))

end Sys2Proof.Machine
end

