-- ==== Sys2Proof/Machine/Global.lean ====
section
/-! DEFINITION. Loads, stores and atomics of the global space (file 03 R81-R85, R90-R93, R98, R105-R107; file 05 R187-R191; file 08
R306). -/

namespace Sys2Proof.Machine

/-- The checks of R188, in their order: alignment, bits 63:56, then translation and permission. -/
def State.globalCheck (s : State) (ea : Word) (n : Nat) (kind : AccessKind) : State × Except TrapRec (Nat × Nat × Nat) :=
  if ea.toNat % n != 0 then (s, .error (misaligned ea))
  else if ea.toNat ≥ 2 ^ 56 then (s, .error { prio := 101, code := 0x41, tinfo := ea })
  else match s.strandAccess s.cur ea.toNat kind with
    | (s, .ok pa ty leaf _) => (s, .ok (pa, ty, leaf))
    | (s, .page) => (s, .error (memFault 0x40 ea.toNat))
    | (s, .prot) => (s, .error (memFault 0x41 ea.toNat))

/-- A pending store, which the strand's loads return (R98). -/
def Strand.ownByte (st : Strand) (va : Nat) : Option Byte :=
  match NMap.get none st.stores va with
  | some o => if o.scope.isNone then some o.val else none
  | none => none

/-- The strand's own stores over the bytes that a load obtains elsewhere. -/
def Strand.overOwn (st : Strand) (va : Nat) (bs : List Byte) : List Byte :=
  ((List.range bs.length).zip bs).map (fun p => (st.ownByte (va + p.1)).getD p.2)

/-- Every byte of a load is an own store. -/
def Strand.allOwn (st : Strand) (va n : Nat) : Bool := (List.range n).all (fun i => (st.ownByte (va + i)).isSome)

/-- A load of normal memory whose line is not in the core view (R98, R500): the strand's own stores, and the line fetched from its home. -/
def State.loadBytes (s : State) (k va pa n : Nat) : State × List Byte :=
  let st := s.strand k
  if st.allOwn va n then (s, st.overOwn va (List.replicate n 0)) else
  let (s, l) := s.fetchLine k va pa
  let (s, bs) := s.fromLine k va n l
  (s, st.overOwn va bs)

/-- A load that the core view serves (R500): it reaches no translating controller (file 14 R399). -/
def State.fromView (s : State) (ea : Word) (n : Nat) : State × Option (List Byte) :=
  let va := ea.toNat
  if va % n != 0 || s.st.allOwn va n then (s, none) else
  match s.hitLine s.cur va with
  | (s, none) => (s, none)
  | (s, some l) =>
    let (s', bs) := s.fromLine s.cur va n l
    (s', some (s.st.overOwn va bs))

/-- The last publication of a byte that passes a test: one more than its position, and the value. -/
def State.lastByte (s : State) (test : Pub → Bool) (pa : Nat) : Nat × Byte :=
  match lastPub test pa s.log.length s.log 0 with
  | some (i, b) => (i + 1, b)
  | none => (0, s.firstByte pa)

/-- The last publication of a byte at .dev or wider, or of strand `k` itself or an atomic, but nothing earlier than the strand has seen. -/
def State.devByte (s : State) (k pa : Nat) : Nat × Byte :=
  let v := s.lastByte (fun p => p.scope ≥ 2 || p.agent == .strand k || p.atomic) pa
  let f := NMap.get 0 (s.strand k).seen pa
  if v.1 < f then (match (s.log[f - 1]?).bind (fun p => p.byteAt pa) with | some b => (f, b) | none => v) else v

/-- An uncached read of `n` bytes at the home (R84): what is published at .dev is observed; a value published at a narrower scope may be.
Later loads return nothing earlier (R98). -/
def State.devRead (s : State) (k pa n : Nat) : State × List Byte :=
  let pas := (List.range n).map (pa + ·)
  let now := pas.map (s.lastByte (fun _ => true))
  let dev := pas.map (s.devByte k)
  let (s, vals) := if now = dev then (s, now)
    else ({ s with freeN := s.freeN + 1 }, if Config.raceChoice s.freeN % 2 = 0 then now else dev)
  (s.noteSeen k pa vals, vals.map (·.2))

/-- Cycles of an access served by the block cache, or by GDDR7 (R306: no fixed bound under load). While its store course refreshes on the
faster schedule a hit may meet a refresh slot and take up to 4 cycles more (R314). -/
def State.homeLatency (s : State) (k va : Nat) (hit : Bool) (extra : Nat) : State × Nat :=
  if hit then
    let t := 40 + extra + 6 * s.distance k va
    if (s.course (s.homeCourse (s.team (teamOf k)).asid va)).fast then ({ s with freeN := s.freeN + 1 }, t + Config.loadDelay s.freeN % 5)
    else (s, t)
  else ({ s with freeN := s.freeN + 1 }, 420 + extra + Config.loadDelay s.freeN)

/-- Record an outstanding result of the issuing strand. -/
def State.pendOn (s : State) (p : Pending) : State :=
  s.setSt (fun st => { st with pend := st.pend ++ [{ p with pc := s.rs.pc, rep := s.rs.rep }] })

/-- The cycle at which an uncached access to GDDR7 is performed: not before the strand's earlier ones; a strongly ordered access waits for
them first (R90, R306). -/
def State.devDue (s : State) (ty n : Nat) : Nat :=
  if ty = 3 then Nat.max s.cycle s.st.devDone + n else Nat.max (s.cycle + n) s.st.devDone

def State.setDevDone (s : State) (due : Nat) : State := s.setSt (fun st => { st with devDone := Nat.max st.devDone due })

/-- An access to a device or strongly ordered page waits while an access of the strand through a PCIe window is not performed, or an atomic
to such a page has not left the core: all of
them are performed in program order (R90, R93). -/
def State.inOrder (s : State) (ty : Nat) (f : State → State) : State :=
  if 2 ≤ ty && (s.st.pcieOpen || s.st.reqDev) then s.block .stall else f s

/-- A request of the strand that has not left the core acts on some of `n` bytes: an access to them comes after it (file 05 R188). -/
def Strand.reqAt (st : Strand) (pa n : Nat) : Bool :=
  st.pend.any (fun p => match p.req with
    | some (.atom _ _ _ q _ _ _ _) => decide (q < pa + n && pa < q + 8)
    | some (.jdone _ q _) => decide (q < pa + n && pa < q + 32)
    | _ => false)

/-- An acquiring atomic through a PCIe window has not completed: loads of later bundles follow its renewal (R102, R107). -/
def Strand.acqOpen (st : Strand) : Bool := st.pend.any (fun p => p.acq.isSome)

/-- An access whose home is a slice of the block cache, which waits while the home slices move (file 13 R375). -/
def State.atHome (s : State) (ty pa : Nat) (f : State → State) : State :=
  if s.homesMove && ty < 2 && targetOf pa == .dram then s.block .stall else f s

/-- LD from a translated address (R188). -/
def State.loadFrom (s : State) (rd va n : Nat) (signed : Bool) (pa ty leaf : Nat) : State :=
  match targetOf pa with
  | .pcie port addr =>
    { (s.pendOn { global := true, pcie := true, dest := .a rd, value := 0, size := n, signed := signed, va := va, due := s.cycle,
                  done := false }) with
      pcieOut := s.pcieOut ++ [{ port := port, addr := addr, kind := 1, data := leBytes n 0 }] }
  | .ctrl off =>
    let v := s.regRead false off n
    (s.regReadEffect false off n).pendOn
      { global := true, dest := .a rd, value := (loadValue n signed v).toNat, va := va, due := s.cycle + 300 }
  | _ =>
    if ty < 2 then
      let own := s.st.allOwn va n
      let (s, bs) := s.loadBytes s.cur va pa n
      let v := (loadValue n signed (leNat bs)).toNat
      if own then s.pendOn { global := true, dest := .a rd, value := v, va := va, due := s.cycle + 8 }
      else
        let (s, hit) := s.touchCache (s.team (teamOf s.cur)).asid va pa leaf false
        let (s, lat) := s.homeLatency s.cur va hit 0
        s.pendOn { global := true, dest := .a rd, value := v, va := va, due := s.cycle + lat }
    else
      let (s, bs) := s.devRead s.cur pa n
      let due := s.devDue ty 300
      (s.setDevDone due).pendOn { global := true, dest := .a rd, value := (loadValue n signed (leNat bs)).toNat, va := va, due := due }

/-- LD (R188): served by the core view in 8 cycles (R306), or by the home of its address. -/
def State.load (s : State) (o : OpL) : State :=
  let ea := s.effAddr o
  let n := sizeOf o.b
  if s.st.acqOpen then s.block .stall else
  match (if s.st.reqOpen then (s, none) else s.fromView ea n) with
  | (s, some bs) =>
    s.pendOn { global := true, dest := .a o.d, value := (loadValue n (signedOf o.b) (leNat bs)).toNat, va := ea.toNat, due := s.cycle + 8 }
  | (s, none) =>
    match s.globalCheck ea n .read with
    | (s, .error r) => s.raise r
    | (s, .ok (pa, ty, leaf)) =>
      if s.st.reqAt pa n then s.block .stall
      else s.atHome ty pa (fun s => s.inOrder ty (fun s => s.loadFrom o.d ea.toNat n (signedOf o.b) pa ty leaf))

def execLd (o : OpL) (s : State) : Result := .next (s.guarded o.g (fun s => s.load o))

/-- Put a store among the strand's pending stores (R94). -/
def Strand.pendStore (st : Strand) (va : Nat) (bs : List Byte) : Strand :=
  { st with
    stores := NMap.setList none st.stores va (bs.map (fun b =>
      some { val := b, start := va, scope := none, fresh := true, seq := st.storeSeq }))
    storeSeq := st.storeSeq + 1 }

/-- The strand's stores to a range of physical bytes, whatever address each was made through (R84): address, store, byte. -/
def State.ownAt (s : State) (k pa n : Nat) : List (Nat × OwnStore × Nat) :=
  (s.strand k).stores.filterMap (fun p => p.2.bind (fun o =>
    match (s.strandAccess k p.1 .write).2 with
    | .ok q _ _ _ => if pa ≤ q && q < pa + n then some (p.1, o, q) else none
    | _ => none))

/-- Change the strand's stores under some addresses. -/
def Strand.updStores (st : Strand) (vas : List Nat) (f : OwnStore → OwnStore) : Strand :=
  { st with stores := st.stores.map (fun (p : Nat × Option OwnStore) => if vas.contains p.1 then (p.1, p.2.map f) else p) }

/-- Own pending stores to the bytes of an atomic, or of a store that is performed at once, enter the coherence order before it, at its scope
(R84, R106), whatever address each was made through (log 103). -/
def State.flushOwn (s : State) (k scope pa n : Nat) : State :=
  let mine := (s.ownAt k pa n).filter (fun x => x.2.1.scope.isNone)
  let c := s.coreOf (teamOf k)
  (s.publishAt (.strand k) (courseOf c) c scope true (lastStores (mine.map (fun x => (x.2.2, x.2.1.seq, x.2.1.val))))).updStrand k
    (fun st => st.updStores (mine.map (·.1)) (fun o => { o with scope := some scope }))

/-- ST to a translated address (R188, R90, R93); a store to a device or strongly ordered page of GDDR7 counts as published at .sys when it is
performed (log 67). -/
def State.storeTo (s : State) (va : Nat) (bs : List Byte) (pa ty : Nat) : State :=
  match targetOf pa with
  | .pcie port addr => { s with pcieOut := s.pcieOut ++ [{ port := port, addr := addr, kind := 0, data := bs }] }
  | .ctrl off => s.regWrite false off bs.length (leNat bs) s.st.level
  | _ =>
    if ty < 2 then s.setSt (fun st => st.pendStore va bs)
    else
      let c := s.coreOf (teamOf s.cur)
      ((s.flushOwn s.cur 3 pa bs.length).publishAt (.strand s.cur) (courseOf c) c 3 false
        ((List.range bs.length).zip bs |>.map (fun p => (pa + p.1, p.2)))).setDevDone (s.devDue ty 300)

def execSt (o : OpL) (s : State) : Result :=
  .next (s.guarded o.g (fun s =>
    let ea := s.effAddr o
    let n := sizeOf o.b
    match s.globalCheck ea n .write with
    | (s, .error r) => s.raise r
    | (s, .ok (pa, ty, _)) =>
      if s.st.reqAt pa n || (2 ≤ ty && s.st.reqOpen) then s.block .stall
      else s.inOrder ty (fun s => s.storeTo ea.toNat (leBytes n (s.aR o.d).toNat) pa ty)))

/-! ### Atomics (R105-R107, R190, R191) -/

/-- Fields of IMM32 (R190). -/
def atomOff (imm : Nat) : Word := BitVec.ofInt 64 (sextInt 20 (bits imm 12 20))
def atomOp (imm : Nat) : Nat := bits imm 8 4
def atomRel (imm : Nat) : Bool := bit imm 7
def atomAcq (imm : Nat) : Bool := bit imm 6
def atomScope (imm : Nat) : Nat := bits imm 4 2
def atomSize (imm : Nat) : Nat := if bit imm 3 then 8 else 4

/-- The element of the order that an atomic is, and the strand's view of its location after it (R106). -/
def State.performAtomic (s : State) (k scope va pa n : Nat) (new : Option Nat) : State :=
  let c := s.coreOf (teamOf k)
  let mine := (s.ownAt k pa n).map (·.1)
  match new with
  | some v =>
    let bs := leBytes n v
    let s := s.publishAt (.strand k) (courseOf c) c scope true ((List.range n).zip bs |>.map (fun p => (pa + p.1, p.2)))
    s.updStrand k (fun st => { (st.updStores mine (fun o => { o with fresh := false })) with
      stores := NMap.setList none (st.updStores mine (fun o => { o with fresh := false })).stores va
        (bs.map (fun b => some { val := b, start := va, scope := some scope, fresh := true, seq := st.storeSeq }))
      storeSeq := st.storeSeq + 1
      seen := NMap.setList 0 st.seen pa (List.replicate n s.log.length) })
  | none =>
    let pos := (List.range n).map (fun i => match lastPub (fun _ => true) (pa + i) s.log.length s.log 0 with
      | some (j, _) => j + 1
      | none => 0)
    s.updStrand k (fun st => { (st.updStores mine (fun o => { o with fresh := false })) with
      seen := NMap.setList 0 st.seen pa pos })

/-- The renewal after an acquiring atomic (R102). -/
def State.atomAfter (s : State) (imm : Nat) : State :=
  if atomAcq imm then (s.renewal s.cur (s.scopeOf (atomScope imm))).renewFetch s.cur (s.scopeOf (atomScope imm)) else s

/-- The AtomicOp of PCIe that an operation becomes, if it has one (R92): 0 FetchAdd, 1 Swap, 2 CAS. -/
def pcieOp (cas : Bool) (op : Nat) : Option Nat := if cas then some 2 else if op = 0 then some 0 else if op = 8 then some 1 else none

/-- An ATOM or CAS is performed at its home (R105, R191), `b` and `d` its operands; on a device or strongly ordered page of GDDR7 it is an
element of the order at .sys (log 67). -/
def State.atomicAt (s : State) (o : OpL) (cas : Bool) (va pa ty leaf b d : Nat) : State :=
  let imm := o.imm
  let n := atomSize imm
  let scope := s.scopeOf (atomScope imm)
  let new := fun (old : Nat) =>
    if cas then (if old = d % 2 ^ (8 * n) then some (b % 2 ^ (8 * n)) else none) else some (atomicOp (atomOp imm) n old b)
  match targetOf pa with
  | .pcie port addr =>
    { (s.pendOn { global := true, pcie := true, dest := .a o.d, value := 0, size := n, va := va, due := s.cycle, done := false,
                  acq := if atomAcq imm then some scope else none }) with
      pcieOut := s.pcieOut ++ [{ port := port, addr := addr, kind := 2, op := (pcieOp cas (atomOp imm)).getD 0,
                                 data := leBytes n b ++ (if cas then leBytes n d else []) }] }
  | _ =>
    let (s, lat) := if ty < 2 then
        let (s, hit) := s.touchCache (s.team (teamOf s.cur)).asid va pa leaf true
        s.homeLatency s.cur va hit 12
      else (s, s.devDue ty 320 - s.cycle)
    let home := if ty < 2 then scope else 3
    let s := s.flushOwn s.cur home pa n
    let old := s.peek pa n
    let s := s.performAtomic s.cur home va pa n (new old)
    let s := if ty < 2 then s else s.setDevDone (s.cycle + lat)
    (s.atomAfter imm).pendOn { global := true, dest := .a o.d, value := old, va := va,
                               due := s.cycle + lat + (if atomAcq imm then 4 else 0) }

/-- The home of an address cannot perform an operation (R92): no AtomicOp of PCIe, a window that supports none, or the control block. -/
def noAtomic (cas : Bool) (op pa : Nat) : Bool :=
  match targetOf pa with
  | .pcie _ _ => (pcieOp cas op).isNone || !Config.atomicOps pa
  | .ctrl _ => true
  | _ => false

/-- ATOM and CAS (R191): the checks of R188, for the page's read and write permissions; then the atomic, after its boundary where it
releases (R102), and after the strand's requests that have not left the core. -/
def State.atomic (s : State) (o : OpL) (cas : Bool) : State :=
  let ea := s.aR o.a + atomOff o.imm
  let b := (s.aR o.b).toNat
  let d := (s.aR o.d).toNat
  match s.globalCheck ea (atomSize o.imm) .update with
  | (s, .error r) => s.raise r
  | (s, .ok (pa, ty, leaf)) =>
    if noAtomic cas (atomOp o.imm) pa then s.raise (memFault 0x41 ea.toNat)
    else if s.st.acqOpen || s.st.reqOpen || (atomAcq o.imm && atomScope o.imm = 3 && s.st.pcieOpen) then s.block .stall
    else s.atHome ty pa (fun s => s.inOrder ty (fun s =>
      if atomRel o.imm then
        s.request (s.scopeOf (atomScope o.imm)) 4 (fun _ => none) (.a o.d) (.atom o cas ea.toNat pa ty leaf b d)
      else s.atomicAt o cas ea.toNat pa ty leaf b d))

def execAtom (o : OpL) (s : State) : Result := .next (s.guarded o.g (fun s => s.atomic o false))
def execCas (o : OpL) (s : State) : Result := .next (s.guarded o.g (fun s => s.atomic o true))

end Sys2Proof.Machine
end

