-- ==== Sys2Proof/Machine/Predicates.lean ====
section
/-! DEFINITION. Predicate logic of the C slot (file 05 R176, R177). -/

namespace Sys2Proof.Machine

/-- PART selects S (0 or 1) and the lane bits (0 or 2) (R176). -/
def partS (part : Nat) : Bool := part == 0 || part == 1
def partL (part : Nat) : BitVec 128 := if part = 0 || part = 2 then BitVec.allOnes 128 else 0

/-- Write the selected bits of a predicate. -/
def State.setPart (s : State) (o : OpQ) (sbit : Bool) (lanes : BitVec 128) : State :=
  s.setP o.pd (if partS o.part then some sbit else none) (partL o.part) lanes

/-- R176. -/
def execPand (o : OpQ) (s : State) : Result := .next (s.setPart o (s.pS o.pa && s.pS o.pb) (s.pL o.pa &&& s.pL o.pb))
def execPor (o : OpQ) (s : State) : Result := .next (s.setPart o (s.pS o.pa || s.pS o.pb) (s.pL o.pa ||| s.pL o.pb))
def execPxor (o : OpQ) (s : State) : Result := .next (s.setPart o (s.pS o.pa ^^ s.pS o.pb) (s.pL o.pa ^^^ s.pL o.pb))
def execPandn (o : OpQ) (s : State) : Result := .next (s.setPart o (s.pS o.pa && !s.pS o.pb) (s.pL o.pa &&& ~~~(s.pL o.pb)))
def execPmov (o : OpQ) (s : State) : Result := .next (s.setPart o (s.pS o.pa) (s.pL o.pa))

/-- Write a result bit to the selected bits (R177). -/
def State.setPartAll (s : State) (o : OpQ) (r : Bool) : State := s.setPart o r (if r then BitVec.allOnes 128 else 0)

/-- R177. -/
def execPany (o : OpQ) (s : State) : Result := .next (s.setPartAll o (s.pL o.pa &&& s.pL o.pb != 0))
def execPall (o : OpQ) (s : State) : Result := .next (s.setPartAll o (s.pL o.pa ||| ~~~(s.pL o.pb) == BitVec.allOnes 128))

end Sys2Proof.Machine
end

