-- ==== Sys2Proof/Machine/Queues.lean ====
section
/-! DEFINITION. Hardware queues (file 07 R279-R282; file 03 R114, R115; file 11 R356): ENQ, DEQ, QCTL, and delivery from the replay
windows. -/

namespace Sys2Proof.Machine

/-- The device's own queues, open from reset (R356). -/
def encoderQueue (q : Nat) : Bool := 4080 ≤ q && q < 4096

/-- The queue may be used by an ASID for ENQ or DEQ (R282, R356). -/
def State.mayUse (s : State) (q asid : Nat) (enq : Bool) : Bool :=
  (enq && encoderQueue q) || (q < 4096 && (s.queue q).isOpen && (s.queue q).owner == asid)

/-- The fault of a queue that is not open or not owned (R282). -/
def queueFault (q : Nat) : TrapRec := { prio := 101, code := 0x41, tinfo := BitVec.ofNat 64 (0xFFFF000000000000 + q) }

/-- The checks of the queue number. -/
def State.queueCheck (s : State) (q : Nat) (enq : Bool) : List Check :=
  if s.mayUse q s.tm.asid enq then [] else [.trap (queueFault q)]

/-- The strand's issuing core is a supervisor core (R281). -/
def State.supervising (s : State) : Bool := isSupervisor (teamOf s.cur)

/-- The global operand of ENQ and DEQ on a supervisor core: normal memory (R281). -/
def State.entryAccess (s : State) (ea : Word) (kind : AccessKind) : State × Except TrapRec Nat :=
  match s.globalCheck ea 64 kind with
  | (s, .error r) => (s, .error r)
  | (s, .ok (pa, ty, _)) =>
    if ty = 0 && targetOf pa == .dram then (s, .ok pa) else (s, .error (memFault 0x41 ea.toNat))

/-- What a load of the bytes of an entry waits for, as LD does: an acquiring atomic, and a request that acts on them (file 03 R102, R107). -/
def State.loadWaits (s : State) (pa n : Nat) : List Check := if s.st.acqOpen || s.st.reqAt pa n then [.wait .stall] else []
/-- What a store of them waits for, as ST does. -/
def State.storeWaits (s : State) (pa n : Nat) : List Check := if s.st.reqAt pa n then [.wait .stall] else []

/-- The queue engine charges the issuing core for an entry (file 08 R316). -/
def State.chargeEntry (s : State) : State := s.charge (s.coreOf (teamOf s.cur)) 1 [s.cycle]

/-- Put an entry in the strand's replay window (R279): the queue engine answers within 40 cycles (file 08 R308). -/
def State.sendEntry (s : State) (q : Nat) (bs : List Byte) : State :=
  let e : QEntry := { queue := q, gen := (s.queue q).gen, asid := s.tm.asid, data := bs, pos := s.log.length, notBefore := s.cycle + 40 }
  s.chargeEntry.setSt (fun st => { st with window := st.window ++ [e] })

/-- A replay window holds 16 entries (R279), one window for each strand over all its queues (log 131). -/
def State.windowCheck (s : State) : List Check := if s.st.window.length ≥ 16 then [.wait .enq] else []

def execEnq (o : OpDR) (s : State) : Result :=
  .next (s.guarded o.g (fun s =>
    let q := (s.aR o.ra).toNat
    let ea := s.addr 0 (s.aR o.rb).toNat
    if s.supervising then
      match s.entryAccess (BitVec.ofNat 64 ea) .read with
      | (s, .error r) => s.checked (s.queueCheck q true ++ [.trap r]) id
      | (s, .ok pa) =>
        s.checked (s.queueCheck q true ++ s.windowCheck ++ s.loadWaits pa 64) (fun s => s.atHome 0 pa (fun s =>
          let (s, bs) := s.loadBytes s.cur ea pa 64
          s.sendEntry q bs))
    else
      s.checked (s.queueCheck q true ++ s.xCheck ea 64 false ++ s.windowCheck) (fun s => s.sendEntry q (s.rt.bytesAt 2 ea 64))))

/-! ### DEQ (R280, R281) -/

/-- Take the oldest entry of a queue. -/
def State.takeEntry (s : State) (q : Nat) : State × Option QEntry :=
  match (s.queue q).entries with
  | [] => (s, none)
  | e :: r => (s.updQueue q (fun Q => { Q with entries := r }), some e)

/-- What DEQ does with an entry, or with an empty queue: the destination's checks come first. -/
def State.dequeue (s : State) (o : OpDR) (empty : State → State) (taken : State → State) : State :=
  let q := (s.aR o.ra).toNat
  let ea := s.addr 0 (s.aR o.rb).toNat
  if s.supervising then
    match s.entryAccess (BitVec.ofNat 64 ea) .write with
    | (s, .error r) => s.checked (s.queueCheck q false ++ [.trap r]) id
    | (s, .ok pa) =>
      s.checked (s.queueCheck q false ++ s.storeWaits pa 64) (fun s =>
        match s.takeEntry q with
        | (s, some e) => taken (s.chargeEntry.setSt (fun st => st.pendStore ea e.data))
        | (s, none) => empty s)
  else
    s.checked (s.queueCheck q false ++ s.xCheck ea 64 true) (fun s =>
      match s.takeEntry q with
      | (s, some e) => taken (s.chargeEntry.setTm (fun T => T.setBytes 2 ea e.data))
      | (s, none) => empty s)

/-- The blocking form (R280). -/
def execDeq (o : OpDR) (s : State) : Result :=
  .next (s.guarded o.g (fun s => s.dequeue o (fun s => s.block (.deq (s.aR o.ra).toNat)) id))

/-- The form that never blocks: the predicate tells whether an entry was taken; it is written when the queue engine answers (R280,
R302). -/
def execDeqNb (o : OpDR) (s : State) : Result :=
  .next (s.guarded o.g (fun s =>
    let dest : PendDest := if o.pt = 0 then .none else .p o.pt
    s.dequeue o (fun s => s.service dest 0 false) (fun s => s.service dest 1)))

/-! ### QCTL (R282, R356) -/

/-- The queue is open and the caller's. -/
def State.ownsQueue (s : State) (q : Nat) : Bool := q < 4096 && (s.queue q).isOpen && (s.queue q).owner == s.tm.asid && !encoderQueue q

/-- Drop the entries of a queue, those in replay windows too (R279, R282). -/
def State.dropEntries (s : State) (q : Nat) : State :=
  { s with strands := s.strands.map (fun (p : Nat × Strand) => (p.1, { p.2 with window := p.2.window.filter (fun e => e.queue != q) })) }

/-- Every failure code that applies; the lowest is returned and nothing changes (R282). -/
def State.qctl (s : State) (o : OpDR) (fails : List (Bool × Nat)) (effect : State → State) : State :=
  match fails.find? (·.1) with
  | some (_, c) => s.service (.a o.rd) c
  | none => (effect s).service (.a o.rd) 0

def execQctlOpen (o : OpDR) (s : State) : Result :=
  .next (s.guarded o.g (fun s =>
    let q := (s.aR o.ra).toNat
    let cap := (s.aR o.rb).toNat
    s.qctl o [(q < 4096 && (s.queue q).isOpen, 1), (cap = 0 || cap > 65536, 3), (q > 4095, 4)] (fun s =>
      s.updQueue q (fun Q => { isOpen := true, owner := s.tm.asid, cap := cap, gen := Q.gen + 1 }))))

def execQctlClose (o : OpDR) (s : State) : Result :=
  .next (s.guarded o.g (fun s =>
    let q := (s.aR o.ra).toNat
    s.qctl o [(q < 4096 && !s.ownsQueue q, 2), (q > 4095, 4)] (fun s => (s.updQueue q (fun Q => { gen := Q.gen })).dropEntries q)))

def execQctlBackoff (o : OpDR) (s : State) : Result :=
  .next (s.guarded o.g (fun s =>
    let q := (s.aR o.ra).toNat
    let k := (s.aR o.rb).toNat
    s.qctl o [(q < 4096 && !s.ownsQueue q, 2), (k > 15, 3), (q > 4095, 4)] (fun s => s.updQueue q (fun Q => { Q with backoff := k }))))

def execQctlDepth (o : OpDR) (s : State) : Result :=
  .next (s.guarded o.g (fun s =>
    let q := (s.aR o.ra).toNat
    s.service (.a o.rd) (if s.ownsQueue q then (s.queue q).entries.length else 2 ^ 64 - 1)))

/-! ### Delivery (R279, R114) -/

/-- Entries of all queues; their storage is one pool of 64 MiB (R282). -/
def State.pooled (s : State) : Nat := (s.queues.map (fun p => p.2.entries.length)).foldl (· + ·) 0

/-- The entries of a window that may be sent now: the oldest of each queue (R114). -/
def oldestPerQueue (l : List QEntry) : List QEntry :=
  (List.range l.length).filterMap (fun i => match l[i]? with
    | some e => if (l.take i).any (fun d => d.queue == e.queue) then none else some e
    | none => none)

/-- An entry of strand `k` reaches its queue: dropped if that queue has been closed, accepted if there is room, refused
otherwise (R279, R282). -/
def State.deliver (s : State) (k : Nat) (e : QEntry) : State :=
  let Q := s.queue e.queue
  let s := { s with cycle := Nat.max s.cycle e.notBefore }
  let ack : Strand → Strand := fun st => { st with window := st.window.erase e }
  if !Q.isOpen || Q.gen != e.gen then s.updStrand k ack
  else if Q.entries.length ≥ Q.cap || s.pooled ≥ 2 ^ 20 then
    s.updStrand k (fun st => { st with window := st.window.map (fun d =>
      if d == e then { d with nacked := true, notBefore := s.cycle + 64 * 2 ^ Q.backoff } else d) })
  else (s.updStrand k ack).updQueue e.queue (fun Q => { Q with entries := Q.entries ++ [e] })

/-- The next entry of a window of one kind: first sent, or to be resent. -/
def Strand.nextEntry (st : Strand) (nacked : Bool) : Option QEntry :=
  (sortBy (fun (e : QEntry) => e.notBefore) ((oldestPerQueue st.window).filter (fun e => e.nacked == nacked))).head?

/-- The queue engine answers for an entry (R279). -/
def execEnqAck (strand : Nat) (s : State) : Result :=
  .next (match (s.strand strand).nextEntry false with
    | some e => s.deliver strand e
    | none => s)

/-- A refused entry is resent after its back-off (R279). -/
def execEnqResend (strand : Nat) (s : State) : Result :=
  .next (match (s.strand strand).nextEntry true with
    | some e => s.deliver strand e
    | none => s)

end Sys2Proof.Machine
end

