-- ==== Sys2Proof/Machine/Tasks.lean ====
section
/-! DEFINITION. Tasks, launches and job control blocks (file 07 R283-R288; file 11 R337, R342-R345): TSUB, LAUNCH, JRAISE, JDONE, JWAIT,
JFLAGS. -/

namespace Sys2Proof.Machine

/-- The frame job of the issuing strand's launch (R337). -/
def State.myJob (s : State) : Option (Nat × Nat) := (s.launch s.tm.launch).job

/-- A stream queue that the issuing agent's ASID does not own (R284, R343). -/
def State.foreignQueue (s : State) (q : Nat) : Bool := q < 512 && !((s.stream q).live && (s.stream q).asid == s.tm.asid)

/-! ### TSUB (R283, R342, R343) -/

/-- Range `k` of a task descriptor: base and length. -/
def taskRange (d : Nat → Nat) (k : Nat) : Nat × Nat := (bits (d (4 + 2 * k)) 0 56, bits (d (5 + 2 * k)) 0 40)

def badRange (d : Nat → Nat) (k : Nat) : Bool :=
  (taskRange d k).1 % 65536 != 0 || (taskRange d k).2 % 65536 != 0 || (taskRange d k).2 == 0

/-- R343, code 1. -/
def badTask (d : Nat → Nat) : Bool :=
  let nr := bits (d 2) 16 3
  let nw := bits (d 2) 20 3
  let q := bits (d 2) 0 10
  let ws := (List.range nw).map (fun k => taskRange d (4 + k))
  nr > 4 || nw > 4 || q > 575 ||
    bits (d 0) 56 8 != 0 || bits (d 1) 56 8 != 0 || bits (d 2) 24 8 != 0 || bit (d 2) 19 || bits (d 2) 10 6 != 0 || d 3 != 0 ||
    bits (d 1) 0 6 != 0 ||
    (List.range 8).any (fun k => bits (d (4 + 2 * k)) 56 8 != 0 || bits (d (5 + 2 * k)) 40 24 != 0) ||
    (List.range 8).any (fun k =>
      if (if k < 4 then k < nr else k - 4 < nw) then badRange d k else d (4 + 2 * k) != 0 || d (5 + 2 * k) != 0) ||
    (List.range ws.length).any (fun i => (List.range i).any (fun j => overlap (ws.getD i (0, 0)) (ws.getD j (0, 0))))

/-- The lowest free slot of the dependence table. -/
def State.freeTask (s : State) : Option Nat :=
  let used := s.tasks.map (·.1)
  (List.range (Nat.min 65536 (used.length + 1))).find? (fun i => !used.contains i)

/-- The refusal code of a descriptor, the lowest that applies (R343). -/
def State.taskRefusal (s : State) (d : Nat → Nat) : Option Nat :=
  let q := bits (d 2) 0 10
  if badTask d then some 1
  else if s.foreignQueue q || (q < 512 && (match s.myJob with | some (n, _) => n != q | none => true)) then some 2
  else if s.freeTask.isNone then some 3
  else if (s.plinthRead s.tm.asid (bits (d 0) 0 56) 64).isNone then some 4
  else none

/-- A task enters the dependence table (R344), and its launch is at the distributor: it waits for earlier tasks that
write what it reads, and renames the pages of its write ranges that earlier tasks name. -/
def State.enterTask (s : State) (d : Nat → Nat) (slot : Nat) : State :=
  let asid := s.tm.asid
  let rs := (List.range (bits (d 2) 16 3)).map (taskRange d)
  let ws := (List.range (bits (d 2) 20 3)).map (fun k => taskRange d (4 + k))
  let seq := s.nextSeq + 1
  let earlier := s.liveTasks.filter (fun u => u.asid == asid)
  let (s', lid) := s.newLaunch
    { hdrVa := bits (d 0) 0 56, subAsid := asid, subLevel := s.st.level, jcb := some (bits (d 1) 0 56), queue := bits (d 2) 0 10,
      cost := bits (d 2) 32 32, task := some slot, job := s.myJob, arrive := s.cycle }
  let t : Task :=
    { seq := seq, asid := asid, launch := lid, reads := rs, writes := ws, wfresh := bit (d 2) 23, cost := bits (d 2) 32 32, job := s.myJob,
      waits := (earlier.filter (fun u => overlapAny rs u.writes)).map (·.seq),
      rename := (pagesOf ws).filter (fun p => earlier.any (fun u => inRanges (u.reads ++ u.writes) (65536 * p))) }
  { s' with nextSeq := seq, tasks := NMap.set none s'.tasks slot (some t) : State }.noteReady

/-- The handle of a task (R343). -/
def taskHandle (slot seq : Nat) : Nat := seq % 2 ^ 47 * 65536 + slot

/-- A descriptor whose JCB address is not a multiple of 64 raises the misaligned-address trap (R304). -/
def State.descTrap (s : State) (va : Nat) : Option TrapRec :=
  (s.plinthRead s.tm.asid va 160).bind (fun bs =>
    let jcb := bits (dwordOf bs 1) 0 56
    if jcb % 64 != 0 then some (misaligned (BitVec.ofNat 64 jcb)) else none)

/-- TSUB at the plinth (R283, R343). -/
def State.submit (s : State) (dest : PendDest) (va : Nat) : State :=
  let s := s.plinthTouch s.tm.asid va 160
  match s.plinthRead s.tm.asid va 160 with
  | none => s.service dest (2 ^ 63 + (if s.freeTask.isNone then 3 else 4))
  | some bs =>
    let s := s.plinthTouch s.tm.asid (bits (dwordOf bs 0) 0 56) 64
    match s.taskRefusal (dwordOf bs), s.freeTask with
    | some c, _ => s.service dest (2 ^ 63 + c)
    | none, some slot => (s.enterTask (dwordOf bs) slot).service dest (taskHandle slot (s.nextSeq + 1))
    | none, none => s.service dest (2 ^ 63 + 3)

def execTsub (o : OpDR) (s : State) : Result :=
  .next (s.guarded o.g (fun s =>
    let a := s.aR o.ra
    s.checked (if a.toNat % 64 != 0 then [.trap (misaligned a)] else []) (fun s =>
      s.request 2 0 (fun s => s.descTrap a.toNat) (.a o.rd) (.tsub a.toNat))))

/-! ### LAUNCH (R284) -/

def State.launchRefusal (s : State) (q : Nat) : Option Nat := if q > 575 then some 1 else if s.foreignQueue q then some 2 else none

/-- LAUNCH at the plinth. -/
def State.launchAt (s : State) (dest : PendDest) (hdr jcb v : Nat) : State :=
  let q := bits v 0 10
  match s.launchRefusal q with
  | some c => s.service dest (2 ^ 63 + c)
  | none =>
    (s.newLaunch { hdrVa := hdr, subAsid := s.tm.asid, subLevel := s.st.level, jcb := some jcb, queue := q, cost := bits v 32 32,
                   job := s.myJob, arrive := s.cycle }).1.service dest 0

def execLaunch (o : OpDR) (s : State) : Result :=
  .next (s.guarded o.g (fun s =>
    let j := s.aR o.rb
    s.checked (if j.toNat % 64 != 0 then [.trap (misaligned j)] else []) (fun s =>
      s.request 2 0 (fun _ => none) (.a o.rd) (.launch (s.aR o.ra).toNat j.toNat (s.aR o.rc).toNat))))

/-! ### Job control blocks (R285-R288) -/

/-- An access to a JCB waits while the home slices move (file 13 R375), and follows the strand's requests that have not left the core. -/
def State.atJcb (s : State) (pa : Nat) (f : State → State) : State := if s.st.reqOpen then s.block .stall else s.atHome 0 pa f

/-- The checks of an instruction that names a JCB: alignment, then translation, write permission and a normal page (R267, R304). -/
def State.jcbAccess (s : State) (a : Word) : State × Except TrapRec Nat :=
  if a.toNat % 64 != 0 then (s, .error (misaligned a)) else
  match s.globalCheck a 1 .write with
  | (s, .error r) => (s, .error r)
  | (s, .ok (pa, ty, _)) => if ty = 0 && targetOf pa == .dram then (s, .ok pa) else (s, .error (memFault 0x41 a.toNat))

/-- An update of a JCB by the issuing strand, an atomic at .sys (R267, R105, R106). -/
def State.strandJcb (s : State) (va pa : Nat) (f : JcbData → JcbData) : State :=
  let s := (s.touchAt (s.team (teamOf s.cur)).asid va pa true).flushOwn s.cur 3 pa 32
  s.performAtomic s.cur 3 va pa 32 (some (leNat (f (s.readJcb pa)).bytes))

/-- JRAISE (R285): it is judged at issue, with the strand's own pending stores in the order before it (file 03 R106). -/
def execJraise (o : OpDR) (s : State) : Result :=
  .next (s.guarded o.g (fun s =>
    let a := s.aR o.ra
    let n := (s.aR o.rb).toNat % 2 ^ 32
    match s.jcbAccess a with
    | (s, .error r) => s.raise r
    | (s, .ok pa) => s.atJcb pa (fun s =>
      if ((s.flushOwn s.cur 3 pa 32).readJcb pa).complete then s.raise { prio := 120, code := 0x42, tinfo := a }
      else s.strandJcb a.toNat pa (fun j => { j with expect := Nat.min (j.expect + n) (2 ^ 32 - 1) }))))

/-- JDONE (R286): the completion counts after the publication (R102); DONE only grows (R288). -/
def execJdone (o : OpDR) (s : State) : Result :=
  .next (s.guarded o.g (fun s =>
    let a := s.aR o.ra
    match s.jcbAccess a with
    | (s, .error r) => s.raise r
    | (s, .ok pa) => s.request 2 0 (fun _ => none) .none (.jdone a.toNat pa ((s.aR o.rb).toNat % 128))))

/-- JWAIT (R287, R288): it blocks until the JCB is complete, then renews at .dev and returns 4 cycles later (file 08 R307). -/
def execJwait (o : OpDR) (s : State) : Result :=
  .next (s.guarded o.g (fun s =>
    let a := s.aR o.ra
    match s.jcbAccess a with
    | (s, .error r) => s.raise r
    | (s, .ok pa) => s.atJcb pa (fun s =>
      if (s.readJcb pa).complete then
        ((s.renewal s.cur 2).answerAt (.a o.rd) (s.readJcb pa).value (s.cycle + 4)).holdUntil (s.cycle + 4)
      else s.block (.jcb a.toNat))))

/-- JFLAGS (R287). -/
def execJflags (o : OpDR) (s : State) : Result :=
  .next (s.guarded o.g (fun s =>
    let a := s.aR o.ra
    match s.jcbAccess a with
    | (s, .error r) => s.raise r
    | (s, .ok pa) => s.atJcb pa (fun s =>
      let j := s.readJcb pa
      s.service (.a o.rd) (j.value + (if j.complete then 2 ^ 63 else 0)))))

end Sys2Proof.Machine
end

