-- ==== Sys2Proof/Machine/Prefix.lean ====
section
/-! DEFINITION. The prefix index and the ranges of pages (file 07 R290-R293; file 14 R393-R397): PFXLOOK, PFXINS, TRIM, PIN. -/

namespace Sys2Proof.Machine

/-! ### Leaves of a table -/

/-- A leaf of the tables of an ASID: its first address, the entry's address and value, and whether it maps 64 MiB. -/
structure LeafAt where
  va : Nat
  at_ : Nat
  pte : Nat
  large : Bool
deriving DecidableEq, Repr

def LeafAt.size (l : LeafAt) : Nat := if l.large then 67108864 else 65536

/-- The leaves of a table that meet a range, in ascending order. -/
def State.leavesFrom (s : State) (lo hi lvl tab base : Nat) : Nat → List LeafAt
  | 0 => []
  | n + 1 =>
    let size := 2 ^ (56 - 10 * lvl)
    ((List.range 1024).map (fun i =>
      let va := base + i * size
      if va + size ≤ lo || hi ≤ va then [] else
      let a := tab + 8 * i
      let pte := s.peekDev a 8
      if pteReserved pte || !pteV pte then []
      else if pteL pte then (if 3 ≤ lvl then [{ va := va, at_ := a, pte := pte, large := lvl == 3 }] else [])
      else if lvl = 4 then [] else s.leavesFrom lo hi (lvl + 1) (ptePA pte + 16384 * ptePAL pte) va n)).flatten

/-- The mapped pages of an ASID that lie wholly within a range (R292, R293). -/
def State.pagesWithin (s : State) (asid lo hi : Nat) : List LeafAt :=
  let e := s.peekDev (s.asidBase + 8 * asid) 8
  if !bit e 0 || lo ≥ hi then [] else
  (s.leavesFrom lo hi 1 (bits e 14 38 * 16384) 0 4).filter (fun l => lo ≤ l.va && l.va + l.size ≤ hi)

/-- The frames of a leaf. -/
def LeafAt.frames (l : LeafAt) : List Nat :=
  if l.large then (List.range 1024).map (fun i => ptePA l.pte + 65536 * i) else [ptePA l.pte]

/-- Write a page-table entry and invalidate what is held of its pages (R399). -/
def State.setEntry (s : State) (asid va size a pte : Nat) : State := (s.poke a (leBytes 8 pte) 3).invalidateRange asid va size

/-- Credit a freed frame to the stream whose key-value range holds its page (R393). -/
def State.creditKv (s : State) (asid va : Nat) : State :=
  match s.kvStream asid va with
  | some n => s.updStream n (fun st => { st with kvused := st.kvused - 1 })
  | none => s

/-- One mapping fewer of the frame of a page; a freed frame is credited (R393, R394). -/
def State.dropMapping (s : State) (asid va frame : Nat) : State :=
  let free := s.mapsOf frame ≤ 1
  let s := s.unmapFrame frame
  if free then s.creditKv asid va else s

/-- One mapping more of a frame that an index entry holds (R397). -/
def State.addMapping (s : State) (frame : Nat) : State :=
  { s with mapCount := NMap.set 0 s.mapCount frame (Nat.max 1 (s.mapsOf frame) + 1) }

/-! ### Ranges of TRIM and PIN (R292, R293) -/

/-- Both ends of the range are aligned to 64 KiB, or the misaligned-address trap names the unaligned end, the first
where both are unaligned (log 133). -/
def rangeCheck (a n : Word) : List Check :=
  if a.toNat % 65536 != 0 then [.trap (misaligned a)]
  else if (a + n).toNat % 65536 != 0 then [.trap (misaligned (a + n))] else []

/-- An access through a PCIe window that was translated under an entry to be invalidated has not been performed (R399). -/
def State.winOpen (s : State) (hit : Nat → Nat → Nat → Bool) : Bool :=
  s.strands.any (fun p => p.2.pend.any (fun q =>
    q.global && q.pcie && !q.done && !q.failed && hit (s.team (teamOf p.1)).asid q.va 1))

/-- The pages that TRIM unmaps: the mapped ones wholly within the range that are not pinned (R292). -/
def State.trimPages (s : State) (a n : Word) : List LeafAt :=
  (s.pagesWithin s.tm.asid a.toNat (a.toNat + n.toNat)).filter (fun l => !ptePin l.pte)

/-- Pending stores to some pages are discarded (R292). -/
def State.dropStores (s : State) (ps : List LeafAt) : State :=
  s.setSt (fun st => { st with stores := st.stores.filter (fun p => !ps.any (fun l => l.va ≤ p.1 && p.1 < l.va + l.size)) })

/-- Unmap a page and free its frames (R292, R394). -/
def State.unmapLeaf (s : State) (asid : Nat) (l : LeafAt) : State :=
  let s := s.setEntry asid l.va l.size l.at_ (l.pte - 1)
  s.forEach ((List.range l.frames.length).zip l.frames) (fun s p => s.dropMapping asid (l.va + 65536 * p.1) p.2)

/-- TRIM (R292): it publishes at .dev the stores that it does not discard, then unmaps. -/
def execTrim (o : OpDR) (s : State) : Result :=
  .next (s.guarded o.g (fun s =>
    let a := s.aR o.ra
    let n := s.aR o.rb
    let asid := s.tm.asid
    s.checked (rangeCheck a n) (fun s =>
      if s.winOpen (meets asid a.toNat n.toNat) then s.block .stall else
      let ps := s.trimPages a n
      s.atBoundary 2 0 (fun s =>
        match (s.dropStores ps).publication s.cur 2 with
        | (s', some (va, c)) => { s with freeN := s'.freeN }.raise (memFault c va)
        | (s, none) => s.forEach ps (fun s l => s.unmapLeaf asid l)) (fun s => s.dropStores ps))))

/-- The PIN bit of an entry. -/
def withPin (pte : Nat) (on : Bool) : Nat := if ptePin pte == on then pte else if on then pte + 256 else pte - 256

def execPin (o : OpDR) (s : State) : Result :=
  .next (s.guarded o.g (fun s =>
    let a := s.aR o.ra
    let n := s.aR o.rb
    let asid := s.tm.asid
    s.checked (rangeCheck a n) (fun s =>
      if s.winOpen (meets asid a.toNat n.toNat) then s.block .stall else
      s.forEach (s.pagesWithin asid a.toNat (a.toNat + n.toNat)) (fun s l =>
        s.setEntry asid l.va l.size l.at_ (withPin l.pte (o.sub == 0))))))

/-! ### The index (R395) -/

/-- The key's fold and bucket. -/
def keyFold (key : Nat) : Nat := (List.range 16).foldl (fun f i => f ^^^ bits key (16 * i) 16) 0
def keyBucket (key : Nat) : Nat := keyFold key % 1024

/-- The home slice of a key, which serialises its requests (R395); those of one cycle come in the order of their cores (`issueOrder`). -/
def State.keyHome (s : State) (key : Nat) : Nat := keyFold key % (32 * s.storeCourses.length)

/-- The entries of a bucket: e = 16 b to 16 b + 15. -/
def State.bucket (s : State) (b : Nat) : List (Nat × Prefix) := s.pfx.filter (fun p => p.1 / 16 == b)

def State.findPrefix (s : State) (asid key : Nat) : Option (Nat × Prefix) :=
  s.pfx.find? (fun p => p.2.asid == asid && p.2.key == key)

/-- The frame list of an entry: pairs of leaf and attribute dword in memory (R395). -/
def State.framePair (s : State) (e j : Nat) : Nat × Nat :=
  (s.peekDev (s.pfxBase + 4096 * e + 16 * j) 8, s.peekDev (s.pfxBase + 4096 * e + 16 * j + 8) 8)

/-- A leaf without the write permission (R396). -/
def readOnly (pte : Nat) : Nat := if bit pte 3 then pte - 8 else pte

/-- Record a lookup of an entry. -/
def State.touchPrefix (s : State) (e : Nat) : State :=
  { s with pfx := s.pfx.map (fun (p : Nat × Prefix) => if p.1 = e then (p.1, { p.2 with lookup := s.cycle }) else p) }

/-- Map a page to a frame of an index entry: leaf and attribute dword (R396, R397). -/
def State.mapShared (s : State) (asid va at_ leaf attr : Nat) : State :=
  let s := s.addMapping (ptePA leaf)
  let s := s.poke (at_ + 8192) (leBytes 8 attr) 3
  s.setEntry asid va 65536 at_ (readOnly leaf)

/-- The level-4 entry of an unmapped page, with a table for a growing region (R391); `none` if the page is mapped or no table
holds it. -/
def State.freeEntry (s : State) (asid va : Nat) : State × Option Nat :=
  match s.walk asid va with
  | .grow 3 pte a => if pteL pte then (s, none) else
    (match s.growTable asid va pte a with
     | (s, true) => (s, s.entryAt asid va)
     | (s, false) => (s, none))
  | .grow _ _ a => (s, some a)
  | .page => (s, s.entryAt asid va)
  | _ => (s, none)

/-- The entries of `n` unmapped pages from an address. -/
def State.freeEntries (s : State) (asid va : Nat) : Nat → State × Option (List Nat)
  | 0 => (s, some [])
  | n + 1 =>
    match s.freeEntry asid va with
    | (s, none) => (s, none)
    | (s, some a) =>
      match s.freeEntries asid (va + 65536) n with
      | (s, some l) => (s, some (a :: l))
      | r => r

/-- The key under the caller's ASID (R290). -/
def State.readKey (s : State) (va : Nat) : Option Nat := (s.plinthRead s.tm.asid va 32).map leNat

/-- PFXLOOK (R290, R397). A key that cannot be read has no stated result: it matches nothing and aD is free. The range is judged on a hit alone
(log 132). -/
def execPfxlook (o : OpDR) (s : State) : Result :=
  .next (s.guarded o.g (fun s =>
    let asid := s.tm.asid
    let va := (s.aR o.rb).toNat
    if s.homesMove then s.block .stall else
    let s := s.plinthTouch asid (s.aR o.ra).toNat 32
    match s.readKey (s.aR o.ra).toNat with
    | none => { s with freeN := s.freeN + 1 }.service (.a o.rd) (Config.freeWord s.freeN).toNat
    | some key =>
      match s.findPrefix asid key with
      | none => s.service (.a o.rd) 0
      | some (e, p) =>
        let s := s.touchPrefix e
        if va % 65536 != 0 || va + 65536 * p.npg > 2 ^ 56 then s.service (.a o.rd) (2 ^ 63 + 1) else
        match s.freeEntries asid va p.npg with
        | (_, none) => s.service (.a o.rd) (2 ^ 63 + 1)
        | (s', some l) =>
          (s'.forEach ((List.range l.length).zip l) (fun s x =>
            let q := s.framePair e x.1
            s.mapShared asid (va + 65536 * x.1) x.2 q.1 q.2)).service (.a o.rd) p.npg))

/-- A mapped 64 KiB page: its entry's address, its leaf, its attribute dword; `large`: part of a 64 MiB page, whose leaf stands at the
entry and here names the part's own frame. -/
structure MappedPage where
  at_ : Nat
  leaf : Nat
  attr : Nat
  large : Bool
deriving DecidableEq, Repr

/-- The leaves of `n` mapped pages from an address (R396). -/
def State.mappedPages (s : State) (asid va : Nat) : Nat → Option (List MappedPage)
  | 0 => some []
  | n + 1 =>
    match s.walk asid va, s.mappedPages asid (va + 65536) n with
    | .leaf pte attr a large, some l =>
      some ({ at_ := a, leaf := if large then pte + va % 67108864 / 65536 * 65536 else pte, attr := attr, large := large } :: l)
    | _, _ => none

/-- Mappings of a frame that index entries hold (R394). -/
def State.heldBy (s : State) (f : Nat) : Nat := s.pfx.foldl (fun n q => n + q.2.frames.count f) 0

/-- An entry is idle when no range maps any of its frames: what maps them is entries of the index (R396). -/
def State.idle (s : State) (p : Prefix) : Bool := p.frames.all (fun f => s.mapsOf f ≤ s.heldBy f)

/-- A loser's pages take the winner's frames (R396). A part of a 64 MiB page has no entry of its own that could name another frame: it keeps
its frame (log 92). -/
def State.loseInsert (s : State) (asid va e : Nat) (p : Prefix) (pages : List MappedPage) : State :=
  s.forEach (((List.range pages.length).zip pages).take p.npg) (fun s x =>
    if x.2.large then s else
    let q := s.framePair e x.1
    let page := va + 65536 * x.1
    let s := s.mapShared asid page x.2.at_ q.1 q.2
    s.dropMapping asid page (ptePA x.2.leaf))

/-- Evict an entry: its frames are freed. -/
def State.evictPrefix (s : State) (e : Nat) (p : Prefix) : State :=
  { s with pfx := s.pfx.filter (fun q => q.1 != e) }.forEach p.frames (fun s f => s.unmapFrame f)

/-- A page entered in the index loses its write permission (R396); a 64 MiB page as a whole. -/
def State.sharePage (s : State) (asid va : Nat) (x : MappedPage) : State :=
  let s := s.addMapping (ptePA x.leaf)
  if x.large then s.setEntry asid (va / 67108864 * 67108864) 67108864 x.at_ (readOnly (x.leaf - va % 67108864 / 65536 * 65536))
  else s.setEntry asid va 65536 x.at_ (readOnly x.leaf)

/-- A new entry at place `e` (R396): its frame list holds the leaves and attribute dwords of the range as they stood. -/
def State.addPrefix (s : State) (asid va key e : Nat) (pages : List MappedPage) : State :=
  let s := { s with pfx := insertBy (fun (q : Nat × Prefix) => q.1)
                      (e, { asid := asid, key := key, npg := pages.length, lookup := s.cycle, frames := pages.map (fun (x : MappedPage) => ptePA x.leaf) }) s.pfx }
  let s := s.poke (s.pfxBase + 4096 * e) ((pages.map (fun (x : MappedPage) => leBytes 8 x.leaf ++ leBytes 8 x.attr)).flatten) 2
  s.forEach ((List.range pages.length).zip pages) (fun s x => s.sharePage asid (va + 65536 * x.1) x.2)

/-- PFXINS at the home slice (R396). -/
def State.insertPrefix (s : State) (asid va key : Nat) (pages : List MappedPage) : State × Nat :=
  match s.findPrefix asid key with
  | some (e, p) => (s.loseInsert asid va e p pages, 1)
  | none =>
    let b := keyBucket key
    let used := s.bucket b
    match (List.range 16).find? (fun i => used.all (fun q => q.1 != 16 * b + i)) with
    | some i => (s.addPrefix asid va key (16 * b + i) pages, 0)
    | none =>
      match leastBy (fun (q : Nat × Prefix) => q.2.lookup) (used.filter (fun q => s.idle q.2)) with
      | some (e, p) => ((s.evictPrefix e p).addPrefix asid va key e pages, 0)
      | none => (s, 2)

/-- PFXINS at the home slice of its key (R291, R396). -/
def State.insertAt (s : State) (dest : PendDest) (ka va n : Nat) : State :=
  let asid := s.tm.asid
  if n < 1 || n > 256 then s.service dest (2 ^ 63 + 2)
  else if va % 65536 != 0 || va + 65536 * n > 2 ^ 56 then s.service dest (2 ^ 63 + 1)
  else
    match s.mappedPages asid va n with
    | none => s.service dest (2 ^ 63 + 1)
    | some pages =>
      let s := s.plinthTouch asid ka 32
      match s.readKey ka with
      | none => { s with freeN := s.freeN + 1 }.service dest (Config.freeWord s.freeN).toNat
      | some key =>
        let (s, v) := s.insertPrefix asid va key pages
        s.service dest v

/-- PFXINS (R291): it publishes at .dev first. -/
def execPfxins (o : OpDR) (s : State) : Result :=
  .next (s.guarded o.g (fun s =>
    s.request 2 0 (fun _ => none) (.a o.rd) (.pfxins (s.aR o.ra).toNat (s.aR o.rb).toNat (s.aR o.rc).toNat)))

end Sys2Proof.Machine
end

