-- ==== Sys2Proof/Machine/Requests.lean ====
section
/-! DEFINITION. Requests that leave the core after a publication (file 03 R102; file 08 R307; file 15 R414), and the completion of the
plinth's services (file 07 R302). -/

namespace Sys2Proof.Machine

/-- What a request does when it leaves the core. -/
def State.perform (s : State) (dest : PendDest) : Request → State
  | .tsub va => s.submit dest va
  | .launch hdr jcb v => s.launchAt dest hdr jcb v
  | .jdone va pa flags => s.strandJcb va pa (fun j => { (j.counted 1) with flags := j.flags ||| flags })
  | .pfxins key va n => s.insertAt dest key va n
  | .atom o cas va pa ty leaf b d =>
    ((s.renewal s.cur (s.scopeOf (atomScope o.imm))).renewFetch s.cur (s.scopeOf (atomScope o.imm))).atomicAt o cas va pa ty leaf b d

/-- A request leaves the core: the stores that its bundle's strand had made are published, then it acts (R102). Where the publication
fails only now, the strand takes the fault at the request's bundle (file 14 R501). -/
def State.present (s : State) (k : Nat) (p : Pending) (r : Request) : State :=
  let s0 := { s with cycle := Nat.max s.cycle p.due, cur := k, iss := {} }
  let done := match s0.publishStores k p.scope p.stores with
    | (s', some (va, c)) =>
      let q := { p with va := va, code := c }
      ({ s0 with freeN := s'.freeN }.updStrand k (fun st => { st with pend := st.pend.map (fun x => if x = p then q else x) })).failAccess k q
    | (s', none) =>
      let s' := s'.setSt (fun st => { st with pend := st.pend.erase p })
      let before := s'.st.pend
      (s'.perform p.dest r).setSt (fun st => { st with
        pend := st.pend.map (fun x => if before.contains x then x else { x with pc := p.pc, rep := p.rep }) })
  { done with cur := s.cur, iss := s.iss }

/-- The requests of a strand can leave its core: its team is there and past no pre-emption point, and the home slices do not move under
a supervisor core (file 13 R375). -/
def State.mayPresent (s : State) (k : Nat) : Bool :=
  (s.team (teamOf k)).status == .bound && !s.leaving (teamOf k) && !(s.holding && isSupervisor (teamOf k))

/-- The next plinth service of a strand to answer, or request to leave the core. -/
def State.nextService (s : State) (k : Nat) : Option Pending :=
  (s.strand k).nextPend (fun p => !p.global && (p.done || (p.req.isSome && !p.failed && s.mayPresent k)))

/-- A plinth service, or a WGET that searched, completes and writes its result, in the saved context if the team is saved (R302,
R413); or a request leaves the core. -/
def execDOperationComplete (strand : Nat) (s : State) : Result :=
  .next (match s.nextService strand with
    | none => s
    | some p =>
      match p.req with
      | some r => s.present strand p r
      | none => ({ s with cycle := Nat.max s.cycle p.due }).updStrand strand (fun st => (st.landAll (p.due - 1)).complete p p.value))

end Sys2Proof.Machine
end

