-- ==== Sys2Proof/Machine/StreamOps.lean ====
section
/-! DEFINITION. The stream instructions (file 07 R294-R296; file 11 R330-R354) and the events of the stream scheduler and the encoders
(file 11 R336-R341, R355-R358). -/

namespace Sys2Proof.Machine

/-! ### STOPEN, STCLOSE, STRUNG -/

/-- STOPEN (R294, R333, R334); while a role change is under way it waits at the scheduler (file 13 R372). -/
def execStopen (o : OpDR) (s : State) : Result :=
  .next (s.guarded o.g (fun s =>
    let va := (s.aR o.ra).toNat
    if s.rcState != 0 then
      { (s.service (.a o.rd) 0 true false) with held := s.held ++ [.stopen s.cur va] }
    else
      let (s, v) := s.accept s.tm.asid va
      s.service (.a o.rd) v))

/-- The caller owns the stream that a register names (R294). -/
def State.ownsStream (s : State) (w : Word) : Bool :=
  w.toNat < 512 && (s.stream w.toNat).live && (s.stream w.toNat).asid == s.tm.asid

/-- An instruction on a stream the caller does not own answers 2^63 + 1 (R294, R295, R340). -/
def State.onStream (s : State) (o : OpDR) (effect : Nat → State → State × Nat) : Result :=
  .next (s.guarded o.g (fun s =>
    let w := s.aR o.ra
    if !s.ownsStream w then s.service (.a o.rd) (2 ^ 63 + 1) else
    let (s, v) := effect w.toNat s
    s.service (.a o.rd) v))

/-- STCLOSE (R294, R335): it takes effect at the stream's next release. -/
def execStclose (o : OpDR) (s : State) : Result :=
  s.onStream o (fun n s => (s.updStream n (fun st => { st with closing := true }), 0))

/-- STRUNG (R295). -/
def execStrung (o : OpDR) (s : State) : Result := s.onStream o (fun n s => (s, (s.stream n).rung))

/-! ### FRAME (R296, R340, R353) -/

/-- The frame job of stream `n` to which the issuing strand belongs. -/
def State.jobOn (s : State) (n : Nat) : Option Nat :=
  match s.myJob with
  | some (m, k) => if m = n then some k else none
  | none => none

def execFrameRsv (o : OpDR) (s : State) : Result :=
  s.onStream o (fun n s =>
    match (s.stream n).frame.reserve s.cycle ((s.jobOn n).getD 0) with
    | none => (s, 2 ^ 63 + 1)
    | some (r, i) => ((s.updStream n (fun st => { st with frame := r })).writeRing (s.stream n).asid r, i))

def execFramePub (o : OpDR) (s : State) : Result :=
  let i := (s.aR o.rb).toNat
  s.onStream o (fun n s =>
    match (s.stream n).frame.publish i with
    | none => (s, 2 ^ 63 + 2)
    | some r =>
      let s := (s.updStream n (fun st => { st with frame := r })).writeRing (s.stream n).asid r
      match s.jobOn n with
      | some k =>
        let (s, met) := s.frameClimb n k
        (s, boolNat met)
      | none => (s, 1))

def execFrameChk (o : OpDR) (s : State) : Result :=
  s.onStream o (fun n s =>
    let s := match s.jobOn n with
      | some k => s.frameCheck n k
      | none => s
    (s, (s.stream n).rung))

/-! ### Releases (R335-R337) -/

/-- The encoder expects frame `k`, of the dimensions of the rung in force, unless it has gone past it (R336, R357). -/
def Stream.expect (st : Stream) (k : Nat) : Stream :=
  let g := ((st.rungs[st.rung]?).getD (0, 0, 0)).2
  if k < st.encK then st else
  { st with encJobs := st.encJobs.filter (fun j => j.1 != k) ++ [(k, st.t0 + k * st.period + st.deadline, g.1, g.2)] }

/-- Launch the frame program of job `k` (R336). -/
def State.launchJob (s : State) (n k : Nat) : State :=
  let st := s.stream n
  let tk := st.t0 + k * st.period
  let dk := tk + st.deadline
  let g := ((st.rungs[st.rung]?).getD (0, 0, 0)).2
  let (s, _) := s.newLaunch
    { hdrVa := st.fprog, subAsid := st.asid, subLevel := 3, jcb := none, queue := n, cost := 0, job := some (n, k),
      mbxInit := [(0, n), (1, k), (2, dk), (3, tk), (4, 4080 + st.engine), (5, st.rung)].map (fun p => (p.1, BitVec.ofNat 64 p.2)) }
  s.updStream n (fun st => ({ st with
    jobs := st.jobs ++ [{ k := k, tk := tk, dk := dk, width8 := g.1, height8 := g.2 }] } : Stream).expect k)

/-- The cycle of a stream's next release. -/
def Stream.nextRelease (st : Stream) : Nat := st.t0 + st.nextK * st.period

/-- A release (R335-R337): a closing stream releases no more; two outstanding jobs defer it with an overrun event. -/
def execStreamRelease (stream : Nat) (s : State) : Result :=
  .next (
    let st := s.stream stream
    if !st.live || st.closed then s else
    let s := { s with cycle := Nat.max s.cycle st.nextRelease }
    if st.closing then
      (s.updStream stream (fun st => { st with
        closed := true, deferred := [], encJobs := st.encJobs.filter (fun j => !st.deferred.contains j.1) })).tryFree stream
    else
    let k := st.nextK
    let s := s.updStream stream (fun st => { st with nextK := k + 1 })
    if st.jobs.length ≥ 2 || !st.deferred.isEmpty then
      (s.updStream stream (fun st => ({ st with deferred := st.deferred ++ [k] } : Stream).expect k)).streamEvent stream 1 0 k
    else s.launchJob stream k)

/-- The first deferred release may take place: of the jobs that it found outstanding the older has ended, so at most the one released just
before it is left (R337). -/
def Stream.mayRelease (st : Stream) : Bool :=
  match st.deferred with
  | [] => false
  | k :: _ => st.live && st.jobs.all (fun j => j.k + 1 == k)

/-- A deferred release takes place when the older of the two jobs that it found outstanding ends (R337). -/
def execDeferredRelease (stream : Nat) (s : State) : Result :=
  .next (match (s.stream stream).deferred with
    | [] => s
    | k :: r =>
      if !(s.stream stream).mayRelease then s
      else (s.updStream stream (fun st => { st with deferred := r })).launchJob stream k)

/-! ### Ring stalls (R341) -/

/-- The cycle at which the slot at PUB of a ring is stalled, if it is reserved and no event stands for it. -/
def Ring.stallAt (r : Ring) (timeout : Nat) : Option Nat :=
  if r.stalled == some r.pub then none else (r.times.find? (fun p => p.1 == r.pub)).map (fun p => p.2.1 + timeout)

/-- The frame that reserved the slot at PUB of a ring. -/
def Ring.pubFrame (r : Ring) : Nat := ((r.times.find? (fun p => p.1 == r.pub)).map (·.2.2)).getD 0

/-- A ring-stall event, once for the slot (R341, file 15 R402): ring 0 is the frame ring, 1 the bitstream ring. -/
def execRingStallTimeout (stream ring : Nat) (s : State) : Result :=
  .next (
    let st := s.stream stream
    let r := if ring = 1 then st.bits else st.frame
    if !st.live then s else
    match r.stallAt st.rtimeout with
    | none => s
    | some t =>
      let s := { s with cycle := Nat.max s.cycle t }
      let r' := { r with stalled := some r.pub }
      (s.updStream stream (fun st => if ring = 1 then { st with bits := r' } else { st with frame := r' })).streamEvent stream
        (if ring = 1 then 4 else 3) r.pub r.pubFrame)

/-! ### The encoders (R355-R358) -/

/-- Bands of a frame of `h8` units of 8 rows (R355). -/
def bandCount (h8 : Nat) : Nat := (h8 + 7) / 8

/-- Dimensions of frame `k`: those of its job, or of rung 0 for a frame not yet released. -/
def Stream.dims (st : Stream) (k : Nat) : Nat × Nat :=
  match st.encJobs.find? (fun j => j.1 == k) with
  | some j => j.2.2
  | none => ((st.rungs[0]?).getD (0, 0, 0)).2

/-- Write bytes at a virtual address for a plinth unit; bytes of a page that is not mapped are lost. -/
def State.plinthWrite (s : State) (asid va : Nat) (bs : List Byte) (scope : Nat) : Nat → State
  | 0 => s
  | fuel + 1 =>
    if bs.isEmpty then s else
    let m := inPage va bs.length
    let s := s.plinthTouch asid va m true
    let s := match s.walk asid va with
      | .leaf pte _ _ large => s.poke (ptePA pte + (if large then va % 67108864 else va % 65536)) (bs.take m) scope
      | _ => s
    s.plinthWrite asid (va + m) (bs.drop m) scope fuel

/-- CONS of a bitstream ring, as the host last published it (R339, R341). -/
def State.ringCons (s : State) (st : Stream) : Nat :=
  match s.plinthRead st.asid st.bits.hdr 64 with
  | some bs => dwordOf bs 5
  | none => 0

def State.bitsFull (s : State) (n : Nat) : Bool := (s.stream n).bits.rsv - s.ringCons (s.stream n) ≥ (s.stream n).bits.nslot

/-- Place the coded frame in the bitstream ring and publish it at .sys (R340, R341, R357, file 18 R453); its bytes are the encoder's. A frame
whose dimensions differ from those of the frame before it is a key frame; a repeat has those of the frame before it. The encoder goes on to
the next frame. -/
def State.placeFrame (s : State) (n : Nat) : State :=
  let st := s.stream n
  let k := st.encK
  match st.bits.reserve s.cycle k with
  | none => s
  | some (r, i) =>
    let r' := (r.publish i).getD r
    let kind := if st.encRep then 2 else if st.encDims == some (st.dims k) then 0 else 1
    let bytes := (Config.frameBytes s.freeN kind st.encRows).take st.bits.slotb
    let s : State := { s with freeN := s.freeN + 1 }
    let s := s.plinthWrite st.asid (st.bits.hdr + 65536 + (i % st.bits.nslot) * st.bits.slotb) bytes 3 (st.bits.slotb / 65536 + 1)
    let s := (s.updStream n (fun st => { st with
      bits := r', encDims := if st.encRep then st.encDims else some (st.dims k), encK := k + 1, encBand := 0, encWait := none,
      encRows := [], encRep := false,
      encHeld := st.encHeld.filter (fun h => k < h.1), encJobs := st.encJobs.filter (fun j => j.1 != k) })).writeRing st.asid r'
    let s := if st.irq then s.msix n else s
    s.tryFree n

/-- A frame is coded: it goes into the ring, or waits with one full-ring event (R341). -/
def State.frameCoded (s : State) (n : Nat) : State :=
  if s.bitsFull n then
    (s.updStream n (fun st => { st with encWait := some (st.encK, true) })).streamEvent n 6 (s.stream n).bits.rsv (s.stream n).encK
  else s.placeFrame n

/-- An entry the encoder drops and counts, with an encoder-protocol event (R356). -/
def State.dropBand (s : State) (engine n band k : Nat) : State :=
  ({ s with encDropped := NMap.upd 0 s.encDropped engine (· + 1) } : State).streamEvent n 5 band k

/-- ENCODER_ENTRY (R356): the engine takes the oldest entry of its queue. A band that comes only at D_k + PERIOD or later is that of a frame which
is a repeat by then, and is old (R357), also while the frame before it waits for its slot. -/
def execEncoderEntry (engine : Nat) (s : State) : Result :=
  .next (match s.takeEntry (4080 + engine) with
    | (s, none) => s
    | (s, some e) =>
      let d := dwordOf e.data
      let n := bits (d 0) 0 9
      let band := bits (d 0) 16 16
      let k := d 1
      let st := s.stream n
      let reserved := bits (d 0) 32 32 != 0 || bits (d 0) 9 7 != 0 || [2, 3, 4, 5, 6, 7].any (fun i => d i != 0)
      if !st.live || st.asid != e.asid || reserved || bandCount (st.dims k).2 ≤ band || k < st.encK || (k == st.encK && st.encWait.isSome) || st.encK + 1 < k then
        s.dropBand engine n band k
      else if st.encHeld.any (fun h => h.1 == k && h.2.1 == band) || (k == st.encK && band < st.encBand) then s
      else if st.encJobs.any (fun j => j.1 == k && j.2.1 + st.period ≤ s.cycle) then s.dropBand engine n band k
      else s.updStream n (fun st => { st with encHeld := st.encHeld ++ [(k, band, e.pos)] }))

/-- The next band of the frame being coded is held. -/
def Stream.bandReady (st : Stream) : Bool :=
  st.live && st.encWait.isNone && st.encHeld.any (fun h => h.1 == st.encK && h.2.1 == st.encBand)

/-- BANDB of R333: bytes of a band slot. -/
def Stream.bandBytes (st : Stream) : Nat := 65536 * ceilDiv (96 * (8 * ((st.rungs[0]?).getD (0, 0, 0)).2.1) * st.bps) 65536

/-- Where the rows of band `j` of frame `k` stand (R355): the luma rows and the chroma rows, address and bytes. -/
def Stream.bandRows (st : Stream) (k j : Nat) : List (Nat × Nat) :=
  let d := st.dims k
  let wb := 8 * d.1 * st.bps
  let slot := st.stage + 65536 + (j % st.bands) * st.bandBytes
  [(slot, Nat.min 64 (8 * d.2 - 64 * j) * wb), (slot + 64 * wb, Nat.min 32 (4 * d.2 - 32 * j) * wb)]

/-- Bytes as a plinth engine reads them, which observes every publication at .dev before `pos` of the order (R357); the content of a page
that is not mapped is free. -/
def State.encoderBytes (s : State) (asid va n pos : Nat) : Nat → State × List Byte
  | 0 => (s, [])
  | fuel + 1 =>
    if n = 0 then (s, []) else
    let m := inPage va n
    let s := s.plinthTouch asid va m
    let (s, bs) := match s.plinthAddr false asid va with
      | some pa => s.engineBytes pos pa m
      | none => ({ s with freeN := s.freeN + 1 }, List.replicate m (Config.freeByte s.freeN))
    let (s, rest) := s.encoderBytes asid (va + m) (n - m) pos fuel
    (s, bs ++ rest)

/-- Read the rows of the next band of the frame being coded. -/
def State.readBand (s : State) (n pos : Nat) : State :=
  let st := s.stream n
  let (s, bs) := (st.bandRows st.encK st.encBand).foldl (fun (q : State × List Byte) p =>
    let (s, bs) := q.1.encoderBytes st.asid p.1 p.2 pos (p.2 / 65536 + 2)
    (s, q.2 ++ bs)) (s, [])
  s.updStream n (fun st => { st with encRows := st.encRows ++ bs })

/-- ENCODER_BAND_READ (R355, R357): the band is read, the staging header is published at .dev, and the last band completes the
frame. -/
def execEncoderBandRead (stream : Nat) (s : State) : Result :=
  .next (
    let st := s.stream stream
    match st.encHeld.find? (fun h => h.1 == st.encK && h.2.1 == st.encBand) with
    | none => s
    | some h =>
      if !st.bandReady || s.holding then s else
      let s := s.readBand stream h.2.2
      let s := s.plinthWrite st.asid st.stage (leBytes 8 st.encK ++ leBytes 8 (st.encBand + 1)) 2 2
      let s := s.updStream stream (fun st => { st with
        encBand := st.encBand + 1, encHeld := st.encHeld.filter (fun h => !(h.1 == st.encK && h.2.1 == st.encBand)) })
      if st.encBand + 1 ≥ bandCount (st.dims st.encK).2 then s.frameCoded stream else s)

/-- The cycle at which the frame being coded becomes a repeat: D_k + PERIOD of a released frame (R357). -/
def Stream.repeatAt (st : Stream) : Option Nat :=
  if st.encWait.isSome then none else
  (st.encJobs.find? (fun j => j.1 == st.encK)).bind (fun j =>
    let missing := (List.range (bandCount j.2.2.2)).any (fun b => st.encBand ≤ b && !st.encHeld.any (fun h => h.1 == st.encK && h.2.1 == b))
    if missing then some (j.2.1 + st.period) else none)

/-- ENCODER_REPEAT_FRAME (R357): the frame is coded as a repeat of the one before it, and counted. -/
def execEncoderRepeatFrame (stream : Nat) (s : State) : Result :=
  .next (
    let st := s.stream stream
    match st.repeatAt with
    | none => s
    | some t =>
      if !st.live || s.holding then s else
      let s := { s with cycle := Nat.max s.cycle t }
      (s.updStream stream (fun st => { st with repeats := st.repeats + 1, encRep := true, encRows := [] })).frameCoded stream)

/-- BITSTREAM_RING_SPACE (R341): the host has consumed a frame, and the frame that waited is placed. -/
def execBitstreamRingSpace (stream : Nat) (s : State) : Result :=
  .next (if (s.stream stream).encWait.isSome && !s.bitsFull stream && !s.holding then s.placeFrame stream else s)

end Sys2Proof.Machine
end

