-- ==== Sys2Proof/Machine/Privileged.lean ====
section
/-! DEFINITION. Privileged D-slot instructions (file 07 R297-R299; file 01 R33; file 14 R398, R399; file 13 R371): SEEDSET, CBSET, XLINV,
CRSET. -/

namespace Sys2Proof.Machine

/-- Below the required level the instruction is a security violation, a keystone event, with no other effect (R33); TINFO is its
opcode (R34). -/
def State.privileged (s : State) (g level op : Nat) (effect : State → State) : Result :=
  .next (s.guarded g (fun s =>
    if s.rs.level < level then s.raise { prio := 40, code := 0x80, tinfo := BitVec.ofNat 64 op } else effect s))

/-- SEEDSET (R297). -/
def execSeedset (o : OpDR) (s : State) : Result :=
  s.privileged o.g 2 0xF0 (fun s => { s with seeds := NMap.set 0 s.seeds ((s.aR o.ra).toNat % 256) (s.aR o.rb) })

/-- Bytes that a privileged instruction reads at its strand's level; `none` where one cannot be read. -/
def State.levelRead (s : State) (va : Nat) : Nat → State × Option (List Byte)
  | 0 => (s, some [])
  | n + 1 =>
    if va ≥ 2 ^ 56 then (s, none) else
    match s.strandAccess s.cur va .read with
    | (s, .ok pa _ _ _) =>
      match targetOf pa, s.levelRead (va + 1) n with
      | .dram, (s, some l) => (s, some (Memory.read s.mem pa :: l))
      | _, (s, _) => (s, none)
    | (s, _) => (s, none)

/-- CBSET (R297). The manual states no result where the values cannot be read: the entries are then free. -/
def execCbset (o : OpDR) (s : State) : Result :=
  s.privileged o.g 2 0xF1 (fun s =>
    let n := (s.aR o.ra).toNat % 4096
    if s.homesMove then s.block .stall else
    let (s, bs) := s.levelRead (s.aR o.rb).toNat 32
    let vals := match bs with
      | some l => (chunks 2 l).map leNat
      | none => (List.range 16).map (fun i => (Config.freeWord (s.freeN + i)).toNat % 65536)
    { s with books := NMap.setList 0 s.books (16 * n) vals, freeN := if bs.isSome then s.freeN else s.freeN + 16 })

/-! ### XLINV (R298, R398): it retires when the accesses translated under the entries are performed (file 14 R399) -/

def execXlinvRng (o : OpDR) (s : State) : Result :=
  s.privileged o.g 1 0xF2 (fun s =>
    let g := (s.aR o.ra).toNat % 65536
    let n := (s.aR o.rc).toNat
    if n = 0 then s
    else if s.winOpen (meets g (s.aR o.rb).toNat n) then s.block .stall
    else s.invalidateRange g (s.aR o.rb).toNat n)

def execXlinvAsid (o : OpDR) (s : State) : Result :=
  s.privileged o.g 1 0xF2 (fun s =>
    let g := (s.aR o.ra).toNat % 65536
    if s.winOpen (fun a _ _ => a == g) then s.block .stall else s.invalidate (fun a _ _ => a == g) 0 (2 ^ 56))

def execXlinvAll (o : OpDR) (s : State) : Result :=
  s.privileged o.g 1 0xF2 (fun s =>
    if s.winOpen (fun _ _ _ => true) then s.block .stall else s.invalidate (fun _ _ _ => true) 0 (2 ^ 56))

/-! ### CRSET (R299, R371) -/

/-- CRSET begins the test step, whose end gives the result; 3 where a change is in progress. -/
def execCrset (o : OpDR) (s : State) : Result :=
  s.privileged o.g 2 0xF3 (fun s =>
    let m := (s.aR o.ra).toNat
    if s.rcState != 0 then s.service (.a o.rd) 3
    else { (s.service (.a o.rd) 0 true false) with rcState := 1, pendMap := m % 64, rcDry := bit m 8, rcStrand := s.cur })

end Sys2Proof.Machine
end

