-- ==== Sys2Proof/Machine/Preempt.lean ====
section
/-! DEFINITION. Pre-emption (file 15 R408-R424): shadow banks, the pre-emption point and the swap, lazy spill and fill of panes and
tiles; the distributor's selection and the exit of a team as steps; stall bundles (file 16 R433). -/

namespace Sys2Proof.Machine

/-! ### Shadow banks (R411) -/

def Core.bank (K : Core) (b : Nat) : Bank := if b = 0 then K.bank0 else K.bank1
def Core.setBank (K : Core) (b : Nat) (x : Bank) : Core := if b = 0 then { K with bank0 := x } else { K with bank1 := x }

/-- The incoming team's context is in its bank, and the request reaches the core. -/
def execBankLoadComplete (core bank : Nat) (s : State) : Result :=
  .next (match (s.core core).bank bank, (s.core core).swap with
    | .loading t, some w =>
      let s := { s with cycle := Nat.max s.cycle w.loaded }
      s.updCore core (fun K => { K.setBank bank (.ready t) with swap := some { w with request := some s.cycle } })
    | _, _ => s)

/-- Cycles within which a bank drains. -/
def drainCycles : Nat := 700

/-- The 4 bytes of a pane in a slot: its descriptor in bits 28:0 (file 02 R71); where its shutter and its discard mark stand among the
rest is not stated, and those bits are free. -/
def descWord (T : Team) (item n : Nat) : List Byte := leBytes 4 (T.descOf item % 2 ^ 29 + (Config.freeByte n).toNat % 8 * 2 ^ 29)

/-- The images of a team lie in its slot, in a form that is reserved to the device: their bytes are free (R410). The descriptors of its
quota's panes stand at 0x29000, W panes, then X panes. -/
def State.writeImages (s : State) (t : Nat) : State :=
  let T := s.team t
  let base := s.ctxBase + 0xA00000 * t
  let m := Memory.writeList s.mem base ((List.range 0x29000).map (fun i => Config.freeByte (s.freeN + i)))
  let n := s.freeN + 0x29000
  let m := Memory.writeList m (base + 0x29000) (((List.range T.wp).map (fun p => descWord T (32 + p) (n + p))).flatten)
  let m := Memory.writeList m (base + 0x2A000) (((List.range T.xp).map (fun p => descWord T (1056 + p) (n + 1024 + p))).flatten)
  { s with mem := m, freeN := n + 2048 }

/-- The outgoing contexts are in their slots. -/
def execBankDrainComplete (core bank : Nat) (s : State) : Result :=
  .next (match (s.core core).bank bank with
    | .draining ts since =>
      (({ s with cycle := Nat.max s.cycle (since + drainCycles) }).forEach ts State.writeImages).updCore core (fun K => K.setBank bank .free)
    | _ => s)

/-! ### The pre-emption point (R412, file 11 R351) -/

/-- Teams that a swap takes from a core: bound there, and not exiting (R422). -/
def State.goers (s : State) (core : Nat) (l : List Nat) : List Nat :=
  l.filter (fun u => (s.team u).status == .bound && s.coreOf u == core && !s.exiting u)

/-- Whether a core may take its request: it has arrived, the swap has not begun, and no team that was to leave is exiting: that one goes by
itself (R422). -/
def State.pointReady (s : State) (core : Nat) : Bool :=
  match (s.core core).swap with
  | some w => w.request.isSome && w.swapEnd.isNone &&
      !w.outgoing.any (fun u => (s.team u).status == .bound && s.coreOf u == core && s.exiting u)
  | none => false

/-- The cycle of the point: 4 cycles after the request, or the end of the repetition or the switch that is under way then (R412, R423); a
strand that waits between its issues is at a point. -/
def State.pointAt (s : State) (core : Nat) (w : Swap) : Nat :=
  Nat.max s.cycle (Nat.max (w.request.getD 0 + 4) (s.core core).bundleEnd)

/-- No bundle issues on a core on cycle `t`: the point that it waits for comes first (R412). -/
def State.barred (s : State) (core t : Nat) : Bool :=
  s.pointReady core && (match (s.core core).swap with
    | some w => decide (w.request.getD 0 + 4 < t)
    | none => false)

/-- Ask a core to pre-empt a team as well; a swap past its point takes nobody more, and the team goes after it. -/
def State.preemptAlso (s : State) (t : Nat) : State :=
  let c := s.coreOf t
  match (s.core c).swap with
  | none => s.preemptCore c [t]
  | some w => if w.outgoing.contains t then s
    else if w.swapEnd.isSome then s.updTeam t (fun T => { T with owed := true })
    else s.updCore c (fun K => { K with swap := some { w with outgoing := w.outgoing ++ [t] } })

/-- The other running teams of a gang (R351). -/
def State.gangMates (s : State) (t : Nat) : List Nat :=
  let L := s.launch (s.team t).launch
  if L.gang then L.slots.filter (fun u => u != t && (s.team u).status == .bound && !s.exiting u) else []

/-- The swap begins at a boundary of the issuing strand, at least 4 cycles after the request; the teams of a gang go together. -/
def execPreemptionPoint (core : Nat) (s : State) : Result :=
  .next (match (s.core core).swap with
    | none => s
    | some w =>
      if !s.pointReady core then s else
      let t := s.pointAt core w
      let s := { s with cycle := t }
      let out := s.goers core w.outgoing
      let s := s.updCore core (fun K =>
        { K with
          slot := if (K.slot.map (fun k => out.contains (teamOf k))).getD false then none else K.slot
          swap := some { w with outgoing := out, swapEnd := some (t + 96) } })
      s.forEach ((out.map s.gangMates).flatten) State.preemptAlso)

/-! ### The end of the swap (R413-R421) -/

/-- Work of a team that still names an item: a command, an M operation, a read by handle (R416, R417). -/
def State.itemBusy (s : State) (t item : Nat) : Bool :=
  (s.team t).named item || s.mHolds t item true || s.handleRead t item

def Team.discardable (T : Team) (i : Nat) : Bool := if i < 32 then NMap.get false T.tdisc i else NMap.get false T.pdisc i

/-- Clear an item: a pane's bytes and margin, a tile's elements and its void flag set (R417, R420). -/
def Team.clearItem (T : Team) (i : Nat) (void : Bool) : Team :=
  if i < 32 then
    { T with tile := T.tile.filter (fun p => p.1 / 4096 != i), tvalid := if void then NMap.set false T.tvalid i false else T.tvalid }
  else
    { T with pane := T.pane.filter (fun p => p.1 / 4096 != paneBase i / 4096), margin := T.margin.filter (fun p => p.1 / 512 != i) }

/-- What a strand's wait at issue becomes when its team leaves: it re-issues at resume; a boundary in progress is abandoned, and so are the
requests that have not left the core (R414, R423). -/
def Strand.leave (st : Strand) : Strand :=
  { st with
    run := match st.run with
      | .blocked .stall => .ready
      | .blocked (.place _) => .ready
      | .blocked (.until _) => .ready
      | r => r
    notBefore := if st.bnd.isSome then 0 else st.notBefore
    bnd := none }

/-- A team leaves its core: its items depart, those declared discardable are cleared, and a strand stalled at issue re-issues at
resume (R417, R420, R423). -/
def State.swapOut (s : State) (core t : Nat) : State :=
  let T := s.team t
  let all := (T.quotaItems 0 ++ T.quotaItems 1 ++ T.quotaItems 2).filter (fun i => !T.toFill.contains i)
  let drop := all.filter (fun i => T.discardable i && !s.itemBusy t i)
  let again := (s.members t).filter (fun k => (s.strand k).bnd.isSome || (s.strand k).reqOpen)
  let s := s.updTeam t (fun T =>
    drop.foldl (fun T i => T.clearItem i true)
      { T with status := .saved, since := s.cycle, spillCore := core, toSpill := T.toSpill ++ all.filter (fun i => !drop.contains i),
               toFill := [], hold := [], rerun := again, whole := decide (s.rcState = 2) })
  s.forEach (s.members t) (fun s k => s.updStrand k Strand.leave)

/-! ### Context slots -/

/-- Where an item lies in a context slot (R410). -/
def State.slotAddr (s : State) (t i : Nat) : Nat :=
  s.ctxBase + 0xA00000 * t +
    (if i < 32 then 0x030000 + 0x4000 * i else if i < 1056 then 0x0B0000 + 0x1200 * (i - 32) else 0x530000 + 0x1200 * (i - 1056))

/-- The bytes of an item: a tile's words, or a pane and its margin. -/
def Team.itemBytes (T : Team) (i : Nat) : List Byte :=
  if i < 32 then ((NMap.getList 0 T.tile (4096 * i) 4096).map (fun v => leBytes 4 v.toNat)).flatten
  else NMap.getList 0 T.pane (paneBase i) 4096 ++ T.marginAt i 0 512

def Team.setItem (T : Team) (i : Nat) (bs : List Byte) : Team :=
  if i < 32 then { T with tile := NMap.setList 0 T.tile (4096 * i) ((chunks 4 bs).map (fun b => BitVec.ofNat 32 (leNat b))) }
  else ({ T with pane := NMap.setList 0 T.pane (paneBase i) (bs.take 4096) }).setMargin i 0 (bs.drop 4096)

/-- One item of a resumed team comes from its slot; a discardable one reads zero (R420). -/
def State.fillItem (s : State) (t i : Nat) : State :=
  let bs := NMap.getList Memory.unlisted s.mem (s.slotAddr t i) (if i < 32 then 16384 else 4608)
  s.updTeam t (fun T => { (if T.discardable i then T else T.setItem i bs) with toFill := T.toFill.filter (· != i) })

/-! ### A team comes -/

/-- The requests of a strand that a swap abandoned leave the core anew, in their order, after a boundary of their stores that begins at resume
(R414, file 08 R307). -/
def State.redate (s : State) (k : Nat) : State :=
  s.updStrand k (fun st =>
    let from_ := Nat.max s.cycle st.devDone
    { st with pend := (st.pend.foldl (fun (r : List Pending × Nat) p =>
        if p.req.isNone then (r.1 ++ [p], r.2) else
        let due := Nat.max (from_ + boundaryCycles p.scope (sectorsOf p.stores)) r.2
        (r.1 ++ [{ p with due := due }], due)) ([], 0)).1 })

/-- A team comes to its core: its view is renewed at .dev and holds no line (R420, file 03 R500), dispositions given while it was saved take effect, its
abandoned requests are presented anew (R414), its items come lazily (R405, R418, R420, R421), or, after a role change, with it (file 13 R371). -/
def State.swapIn (s : State) (core t : Nat) : State :=
  let T := s.team t
  let resumed := T.since != 0 || !T.toSpill.isEmpty
  let fill := if resumed then
      (T.quotaItems 0 ++ T.quotaItems 1 ++ T.quotaItems 2).filter (fun i => !T.discardable i || T.toSpill.contains i)
    else []
  let s := s.updTeam t (fun T => { T with status := .bound, toFill := fill, hold := s.holdsFor t core, rerun := [], whole := false })
  let s := if T.whole then s.forEach (fill.filter (fun i => !T.toSpill.contains i)) (fun s i => s.fillItem t i) else s
  let s := s.forEach T.rerun State.redate
  s.forEach (s.members t) (fun s k =>
    let s := s.renewal k 2
    match (s.strand k).parked with
    | some f => (match f.disp with | some d => s.disposeNow k f d | none => s)
    | none => s)

/-- The bank that takes the outgoing contexts at the end of a swap: not the incoming team's (R413); a free one where both are not. -/
def Core.outBank (K : Core) (incoming : Option Nat) : Nat :=
  let used := fun (b : Bank) => match b, incoming with
    | .ready t, some u => t == u
    | _, _ => false
  if used K.bank0 then 1 else if used K.bank1 then 0 else if K.bank0 == .free then 0 else if K.bank1 == .free then 1 else 0

/-- Contexts go to a bank, which drains; one that still drains others drains all of them. -/
def Core.drainTo (K : Core) (b : Nat) (ts : List Nat) (now : Nat) : Core :=
  if ts.isEmpty then K else
  K.setBank b (match K.bank b with
    | .draining old _ => .draining (old ++ ts) now
    | _ => .draining ts now)

/-- The bank of a team is free once it issues. -/
def Core.freeBank (K : Core) : Option Nat → Core
  | some t => if K.bank0 == Bank.ready t then K.setBank 0 .free else if K.bank1 == Bank.ready t then K.setBank 1 .free else K
  | none => K

/-- The swap ends: the incoming team issues, the outgoing contexts drain from a bank, their items depart. While a role change drains or
the cluster is stopped, what came in is pre-empted again (file 13 R371, file 16 R439). -/
def execSwapEnd (core : Nat) (s : State) : Result :=
  .next (match (s.core core).swap with
    | none => s
    | some w =>
      match w.swapEnd with
      | none => s
      | some e =>
        let s := { s with cycle := Nat.max s.cycle e }
        let out := s.goers core w.outgoing
        let s := s.forEach out (fun s t => s.swapOut core t)
        let s := s.updCore core (fun K =>
          { ((K.drainTo (K.outBank w.incoming) out s.cycle).freeBank w.incoming) with
            swap := none, nextIssue := Nat.max K.nextIssue s.cycle })
        let s := match w.incoming with
          | some t => s.swapIn core t
          | none => s
        let owed := (s.runningOn core).filter (fun t => (s.team t).owed)
        let s := s.forEach owed (fun s t => s.updTeam t (fun T => { T with owed := false }))
        if s.rcState = 2 || (s.cluster (clusterOf core)).stop then s.preemptCore core (s.runningOn core)
        else if owed.isEmpty then s else s.preemptCore core owed)

/-! ### The spill unit (R410, R417, R421) -/

/-- Cycles of a spill or fill step: 64 for a tile, 18 for a pane. -/
def stepCycles (i : Nat) : Nat := if i < 32 then 64 else 18

/-- The items that depart from a core and can be spilled now, in the order of R417. -/
def State.spills (s : State) (core : Nat) : List (Nat × Nat) :=
  ((s.teams.filter (fun p => p.2.spillCore == core)).map (fun p =>
    (p.2.toSpill.filter (fun i => !s.itemBusy p.1 i)).map (fun i => (p.1, i)))).flatten

/-- The items that can be filled on a core now: of a team bound there, out of its old core, their places cleared (R421). -/
def State.fills (s : State) (core : Nat) : List (Nat × Nat) :=
  ((s.teams.filter (fun p => p.1 < 65536 && p.2.core == core && p.2.status == .bound)).map (fun p =>
    (p.2.toFill.filter (fun i => !p.2.toSpill.contains i && !p.2.hold.any (fun h => h.1 == i))).map (fun i => (p.1, i)))).flatten

/-- What brings an item of a team to its place next: the core whose spill unit has to move an item, and the team and the item: itself, while it
still departs; the departing item whose place it takes; or itself, to be filled. -/
def State.wantAt (s : State) (t i : Nat) : Option (Nat × Nat × Nat) :=
  let T := s.team t
  if T.toSpill.contains i then some (T.spillCore, t, i)
  else match T.hold.find? (fun h => h.1 == i) with
    | some h => some ((s.team h.2.1).spillCore, h.2)
    | none => if T.toFill.contains i then some (T.core, t, i) else none

/-- A touch of an item moves it to the head of the order (R417, R421): after those touched before. -/
def State.touchItem (s : State) (t i : Nat) : State :=
  match s.wantAt t i with
  | some (c, q) => s.updCore c (fun K => { K with touched := if K.touched.contains q then K.touched else K.touched ++ [q] })
  | none => s

/-- Items that the head of the M queue of a team's core and the commands that may start wait for. -/
def State.workItems (s : State) (t : Nat) (T : Team) : List Nat :=
  ((T.cmds.filter (fun c => c.start ≤ s.cycle)).map (·.items)).flatten ++
    (match (s.core T.core).mrun, (s.core T.core).mq with
     | none, o :: _ => if teamOf o.strand == t then o.reads T ++ o.writes else []
     | _, _ => [])

/-- The items that a core's spill unit takes first: those touched, then those that the engines wait for. -/
def State.wants (s : State) (core : Nat) : List (Nat × Nat) :=
  (s.core core).touched ++
    (((s.teams.filter (fun p => p.2.status == .bound && !(p.2.toFill.isEmpty && p.2.hold.isEmpty))).map (fun p =>
      (s.workItems p.1 p.2).filterMap (s.wantAt p.1))).flatten.filter (fun w => w.1 == core)).map (·.2)

/-- The next step of a core's spill unit: a fill or a spill, the team, the item. -/
def State.nextWork (s : State) (core : Nat) : Option (Bool × Nat × Nat) :=
  let sp := s.spills core
  let fi := s.fills core
  if sp.isEmpty && fi.isEmpty then none else
  match (s.wants core).findSome? (fun q => if sp.contains q then some (false, q) else if fi.contains q then some (true, q) else none) with
  | some w => some w
  | none =>
    match sp with
    | q :: _ => some (false, q)
    | [] => fi.head?.map (fun q => (true, q))

/-- Cores with items that depart or come. -/
def State.spillCores (s : State) : List Nat :=
  ((s.teams.filter (fun p => !(p.2.toSpill.isEmpty && p.2.toFill.isEmpty))).map (fun p => [p.2.spillCore, p.2.core])).flatten.eraseDups

/-- An idle spill unit begins its next step. -/
def State.startUnits (s : State) : State :=
  s.forEach (s.spillCores.filter (fun c => (s.core c).work.isNone)) (fun s c =>
    match s.nextWork c with
    | some w => s.updCore c (fun K => { K with work := some w, spillAt := s.cycle })
    | none => s)

/-- The step of a core's spill unit ends. -/
def State.endWork (s : State) (core i : Nat) : State :=
  ({ s with cycle := Nat.max s.cycle ((s.core core).spillAt + stepCycles i) } : State).updCore core (fun K =>
    { K with work := none, touched := K.touched.filter (fun q => some (false, q) != K.work && some (true, q) != K.work) })

/-- One departing item is written to the slot and cleared; a discardable one is cleared without being written. -/
def execSpillStep (core : Nat) (s : State) : Result :=
  .next (match (s.core core).work with
    | some (false, t, i) =>
      let s := s.endWork core i
      let T := s.team t
      if !T.toSpill.contains i then s else
      let s : State := if T.discardable i then s else { s with mem := Memory.writeList s.mem (s.slotAddr t i) (T.itemBytes i) }
      let s := s.updTeam t (fun T => { T.clearItem i (T.discardable i) with toSpill := T.toSpill.filter (· != i) })
      { s with teams := NMap.mapAll {} s.teams (fun _ (T : Team) => { T with hold := T.hold.filter (fun h => h.2 != (t, i)) }) }
    | _ => s)

/-- One item of a resumed team comes from its slot. -/
def execFillStep (core : Nat) (s : State) : Result :=
  .next (match (s.core core).work with
    | some (true, t, i) =>
      let s := s.endWork core i
      if (s.team t).toFill.contains i && (s.team t).core == core then s.fillItem t i else s
    | _ => s)

/-! ### Selection, exit, stall bundles -/

/-- The distributor makes a selection (file 11 R346), at most one every 4 cycles. -/
def execDistributorSelection (s : State) : Result :=
  .next (({ s with cycle := if s.lastSel = 0 then s.cycle else Nat.max s.cycle (s.lastSel + 4) }).selection)

/-- A team whose strands and operations have all finished exits (file 05 R175, file 15 R422). -/
def execTeamExit (team : Nat) (s : State) : Result := .next (if s.canExit team then s.exitTeam team else s)

/-- A cycle on which W + E would exceed BUDGET (file 16 R433). -/
def execStallBundle (core : Nat) (s : State) : Result :=
  .next (s.updCore core (fun K => { K with nextIssue := Nat.max s.cycle K.nextIssue + 1 }))

end Sys2Proof.Machine
end

