-- ==== Sys2Proof/Machine/Timing.lean ====
section
/-! DEFINITION. What the group check, the scoreboard and the meter know of an instruction (file 04 R134-R136; file 05 R154, R502; file 06
R212; file 07 R302; file 08 R305, R311, R313, R315): registers read and written, latency, energy weight; and the address operands
of a sticky slot (file 04 R131; file 06 R211; file 07 R246). -/

namespace Sys2Proof.Machine

/-! ### Registers read -/

/-- The guard of a C, A, M or D slot. -/
def sGuard (g : Nat) : List Reg := [.ps g]
/-- The guard of a bay. -/
def vGuard (g bay : Nat) : List Reg := [.pl g bay]
/-- All eight lane sets of a predicate. -/
def laneSets (p : Nat) : List Reg := (List.range 8).map (Reg.pl p)
/-- The sets that PART selects. -/
def partSets (part p : Nat) : List Reg := (if partS part then [.ps p] else []) ++ (if part = 0 || part = 2 then laneSets p else [])
/-- The A register of a pane, tile or global operand, where it has one. -/
def operandReg (sp x : Nat) : List Reg := if sp = 0 || 1024 ≤ x then [.a (x % 64)] else []

def readsG2 (o : OpG) : List Reg := sGuard o.g ++ [.a o.a, .a o.b]
def readsG1 (o : OpG) : List Reg := sGuard o.g ++ [.a o.a]
def readsG3 (o : OpG) : List Reg := readsG2 o ++ [.a o.d]
def readsL2 (o : OpL) : List Reg := sGuard o.g ++ [.a o.a, .a o.b]
def readsV2 (o : OpV) : List Reg := vGuard o.g o.bay ++ [.v o.bay o.a, .v o.bay o.b]
def readsV1 (o : OpV) : List Reg := vGuard o.g o.bay ++ [.v o.bay o.a]
def readsV3 (o : OpV) : List Reg := readsV2 o ++ [.v o.bay o.d]
/-- The register range of a conversion (R230). -/
def vRange (bay v n : Nat) : List Reg := (List.range n).map (fun i => .v bay (v + i))
def readsMA (o : OpMA) : List Reg := sGuard o.g ++ operandReg 1 o.wp ++ operandReg 2 o.xp
/-- Guard and A registers of a format DR instruction. -/
def readsDR (o : OpDR) (rs : List Nat) : List Reg := sGuard o.g ++ rs.map Reg.a

/-- The descriptor of VNRW and VWDN, from its register. -/
def Strand.cdesc (st : Strand) (n : Nat) : Nat := (NMap.get 0 st.a n).toNat

/-- The registers that an instruction reads, as the group check counts them (R134, R135). -/
def readsOf (st : Strand) : Instr → List Reg
  | .pbr o => sGuard o.g
  | .pbrx o => readsG1 o
  | .br o => sGuard o.g ++ [.b o.a]
  | .brl o => sGuard o.g ++ [.b o.a]
  | .loop o => sGuard o.g ++ [.a o.cnt]
  | .loopi o => sGuard o.g
  | .loopm o => sGuard o.g
  | .lexit o => sGuard o.g
  | .sleep o => readsG1 o
  | .waitp o => sGuard o.g
  | .bar o => sGuard o.g
  | .phase o => sGuard o.g
  | .trap o => sGuard o.g
  | .tret o => sGuard o.g
  | .sret o => sGuard o.g
  | .exit o => sGuard o.g
  | .yield o => sGuard o.g
  | .pand o => partSets o.part o.pa ++ partSets o.part o.pb
  | .por o => partSets o.part o.pa ++ partSets o.part o.pb
  | .pxor o => partSets o.part o.pa ++ partSets o.part o.pb
  | .pandn o => partSets o.part o.pa ++ partSets o.part o.pb
  | .pmov o => partSets o.part o.pa
  | .pany o => laneSets o.pa ++ laneSets o.pb
  | .pall o => laneSets o.pa ++ laneSets o.pb
  | .add o => readsG2 o
  | .sub o => readsG2 o
  | .mul o => readsG2 o
  | .mulh o => readsG2 o
  | .mulhu o => readsG2 o
  | .div o => readsG2 o
  | .divu o => readsG2 o
  | .rem o => readsG2 o
  | .remu o => readsG2 o
  | .min o => readsG2 o
  | .max o => readsG2 o
  | .minu o => readsG2 o
  | .maxu o => readsG2 o
  | .abs o => readsG1 o
  | .and o => readsG2 o
  | .or o => readsG2 o
  | .xor o => readsG2 o
  | .andn o => readsG2 o
  | .orn o => readsG2 o
  | .shl o => readsG2 o
  | .shr o => readsG2 o
  | .sar o => readsG2 o
  | .rotl o => readsG2 o
  | .shli o => readsG1 o
  | .shri o => readsG1 o
  | .sari o => readsG1 o
  | .clz o => readsG1 o
  | .ctz o => readsG1 o
  | .popc o => readsG1 o
  | .brev o => readsG1 o
  | .bfx o => readsG2 o
  | .bfxu o => readsG2 o
  | .bfi o => readsG3 o
  | .fshl o => readsG3 o
  | .fshr o => readsG3 o
  | .movi o => sGuard o.g
  | .movl o => sGuard o.g ++ (if o.b = 1 then [.a o.d] else [])
  | .addi o => sGuard o.g ++ [.a o.a]
  | .cmp o => readsL2 o
  | .cmpi o => sGuard o.g ++ [.a o.a]
  | .sel o => readsL2 o ++ [.ps o.imm]
  | .fcmp o => readsL2 o
  | .ld o => sGuard o.g ++ [.a o.a]
  | .ldx o => sGuard o.g ++ [.a o.a]
  | .st o => sGuard o.g ++ [.a o.a, .a o.d]
  | .stx o => sGuard o.g ++ [.a o.a, .a o.d]
  | .atom o => readsL2 o
  | .cas o => readsL2 o ++ [.a o.d]
  | .csrr o => sGuard o.g
  | .csrw o => readsG1 o
  | .mbxr o => sGuard o.g
  | .mbxw o => readsG2 o
  | .cyc o => sGuard o.g
  | .xmovaB o => readsG1 o
  | .xmovaV o => readsG1 o
  | .xmovaPair o => readsG1 o
  | .wget o => sGuard o.g
  | .wrange o => readsG2 o
  | .fadd o => readsG2 o
  | .fsub o => readsG2 o
  | .fmul o => readsG2 o
  | .ffma o => readsG3 o
  | .fcvt o => readsG1 o
  | .vadd o => readsV2 o
  | .vsub o => readsV2 o
  | .vmul o => readsV2 o
  | .vmulh o => readsV2 o
  | .vmulhu o => readsV2 o
  | .vmad o => readsV3 o
  | .vmin o => readsV2 o
  | .vmax o => readsV2 o
  | .vminu o => readsV2 o
  | .vmaxu o => readsV2 o
  | .vabs o => readsV1 o
  | .vand o => readsV2 o
  | .vor o => readsV2 o
  | .vxor o => readsV2 o
  | .vandn o => readsV2 o
  | .vshl o => readsV2 o
  | .vshr o => readsV2 o
  | .vsar o => readsV2 o
  | .vclz o => readsV1 o
  | .vpopc o => readsV1 o
  | .vbfx o => readsV2 o
  | .vbfxu o => readsV2 o
  | .vbfi o => readsV3 o
  | .vfshl o => readsV3 o
  | .vfshr o => readsV3 o
  | .vmovi o => vGuard o.g o.bay
  | .vcmp o => [.v o.bay o.a, .v o.bay o.b]
  | .vcmpi o => [.v o.bay o.a]
  | .vfcmp o => [.v o.bay o.a, .v o.bay o.b]
  | .vsel o => readsV2 o
  | .vaddsat o => readsV2 o
  | .vsubsat o => readsV2 o
  | .vdot4 o => readsV3 o
  | .vdot4s o => readsV3 o
  | .vdot2 o => vGuard (o.g % 64) o.bay ++ [.v o.bay o.a, .v o.bay o.b, .v o.bay o.d]
  | .vfadd o => readsV2 o
  | .vfsub o => readsV2 o
  | .vfmul o => readsV2 o
  | .vfma o => readsV3 o
  | .vbfma o => readsV3 o
  | .vfmin o => readsV2 o
  | .vfmax o => readsV2 o
  | .vfabs o => readsV1 o
  | .vfneg o => readsV1 o
  | .vfcvt o => readsV1 o ++ (if [4, 5, 8, 9].contains o.b then [.v o.bay o.d] else [])
  | .vnrw o => vGuard o.g o.bay ++ [.a o.b] ++ vRange o.bay o.a (wideRegs (st.cdesc o.b))
  | .vwdn o => vGuard o.g o.bay ++ [.a o.b] ++ vRange o.bay o.a (codeRegs (st.cdesc o.b))
  | .vrcp o => readsV1 o
  | .vrsq o => readsV1 o
  | .vexp2 o => readsV1 o
  | .vlog2 o => readsV1 o
  | .vld o => vGuard o.g o.bay ++ [.a o.a]
  | .vst o => vGuard o.g o.bay ++ [.a o.a, .v o.bay o.d]
  | .vldg o => vGuard o.g o.bay ++ [.a o.b, .v o.bay o.a]
  | .vsts o => vGuard o.g o.bay ++ [.a o.b, .v o.bay o.a, .v o.bay o.d]
  | .vshuf o => readsV2 o
  | .vred o => readsV1 o
  | .vscan o => readsV1 o
  | .vcntp o => vGuard o.g o.bay ++ (if o.b = 2 then laneSets o.a else [.pl o.a o.bay])
  | .vlane o => vGuard o.g o.bay
  | .xmovvBay o => readsV1 o
  | .xmovvAll o => readsV1 o
  | .xmovvA o => readsV1 o
  | .xmovvA2 o => readsV1 o
  | .mma o => readsMA o
  | .mmaz o => readsMA o
  | .mmag o => readsMA o ++ [.latch]
  | .midx o => sGuard o.g ++ [.v o.bay o.va]
  | .mld o => sGuard o.g ++ operandReg 2 o.xp
  | .mst o => sGuard o.g ++ operandReg 2 o.xp
  | .mzero o => sGuard o.g
  | .mtrn o => sGuard o.g
  | .mrowmax o => sGuard o.g
  | .mrowsum o => sGuard o.g
  | .mscale o => sGuard o.g
  | .maddt o => sGuard o.g
  | .mwait o => sGuard o.g
  | .dcopy o => sGuard o.g ++ operandReg o.ssp o.src ++ operandReg o.dsp o.dst ++ (if o.mod = 1 then [.a o.aux] else [])
  | .dcopy2 o => sGuard o.g ++ operandReg o.ssp o.src ++ operandReg o.dsp o.dst ++ [.a o.aux]
  | .dgath o => sGuard o.g ++ operandReg 0 o.src ++ operandReg 2 o.dst ++ [.a o.aux, .a o.aux2]
  | .dfill o => sGuard o.g ++ operandReg o.dsp o.dst ++ [.a o.aux] ++ (if o.mod = 1 then [.a o.aux2] else [])
  | .dtbl o => sGuard o.g ++ operandReg 2 o.src ++ operandReg 2 o.dst ++ [.a o.aux]
  | .shut o => sGuard o.g ++ operandReg o.dsp o.dst
  | .openp o => sGuard o.g ++ operandReg o.dsp o.dst
  | .rsend o => sGuard o.g ++ operandReg o.ssp o.src ++ [.a o.aux]
  | .rrecv o => sGuard o.g ++ operandReg o.dsp o.dst ++ [.a o.aux]
  | .dtblld o => readsDR o [o.ra]
  | .dpref o => readsDR o [o.ra, o.rb]
  | .dflush o => readsDR o [o.ra, o.rb]
  | .enq o => readsDR o [o.ra, o.rb]
  | .deq o => readsDR o [o.ra, o.rb]
  | .deqNb o => readsDR o [o.ra, o.rb]
  | .qctlOpen o => readsDR o [o.ra, o.rb]
  | .qctlClose o => readsDR o [o.ra, o.rb]
  | .qctlBackoff o => readsDR o [o.ra, o.rb]
  | .qctlDepth o => readsDR o [o.ra, o.rb]
  | .tsub o => readsDR o [o.ra]
  | .launch o => readsDR o [o.ra, o.rb, o.rc]
  | .jraise o => readsDR o [o.ra, o.rb]
  | .jwait o => readsDR o [o.ra]
  | .jdone o => readsDR o [o.ra, o.rb]
  | .jflags o => readsDR o [o.ra]
  | .pfxlook o => readsDR o [o.ra, o.rb]
  | .pfxins o => readsDR o [o.ra, o.rb, o.rc]
  | .trim o => readsDR o [o.ra, o.rb]
  | .pin o => readsDR o [o.ra, o.rb]
  | .stopen o => readsDR o [o.ra]
  | .stclose o => readsDR o [o.ra]
  | .strung o => readsDR o [o.ra]
  | .frameRsv o => readsDR o [o.ra]
  | .framePub o => readsDR o [o.ra, o.rb]
  | .frameChk o => readsDR o [o.ra]
  | .seedset o => readsDR o [o.ra, o.rb]
  | .cbset o => readsDR o [o.ra, o.rb]
  | .xlinvRng o => readsDR o [o.ra, o.rb, o.rc]
  -- R298 names aS, aA and aN in every form (R134)
  | .xlinvAsid o => readsDR o [o.ra, o.rb, o.rc]
  | .xlinvAll o => readsDR o [o.ra, o.rb, o.rc]
  | .crset o => readsDR o [o.ra]
  | _ => []

/-! ### Registers written -/

/-- The predicate sets an instruction writes (R135). -/
def predSets (i : Instr) : List Reg := (predWrites i).map (fun p => if p.2 = 8 then .ps p.1 else .pl p.1 p.2)

/-- The register an instruction names as its destination, and the cycles after which a later group reads it; `none`: the result
comes when its operation completes (R302, R306). Transom destinations are not here (R137). The b registers of PBR and BRL take 1 cycle
(log 101). -/
def destOf (st : Strand) (i : Instr) : List Reg × Option Nat :=
  let a1 := fun (o : OpG) (n : Nat) => (([.a o.d] : List Reg), some n)
  let v := fun (o : OpV) (n : Nat) => (([.v o.bay o.d] : List Reg), some n)
  let sd := fun (o : OpG) (n : Nat) => (([.a o.d] : List Reg), some n)
  let rd := fun (o : OpDR) => (([.a o.rd] : List Reg), (none : Option Nat))
  let ra := fun (n : Nat) => (NMap.get 0 st.a n).toNat
  let mag := fun (n : Nat) => (NMap.get 0 st.a n).toInt.natAbs
  -- R502
  let divTime := fun (m d : Nat) => if d = 0 then 8 else Nat.max 8 (4 + (m.log2 + 2) / 2)
  let divS := fun (o : OpG) => if ra o.a = 2 ^ 63 && ra o.b = 2 ^ 64 - 1 then 8 else divTime (mag o.a) (ra o.b)
  match i with
  | .pbr o => ([.b o.k], some 1)
  | .brl _ => ([.b 7], some 1)
  | .pand _ => (predSets i, some 1)
  | .por _ => (predSets i, some 1)
  | .pxor _ => (predSets i, some 1)
  | .pandn _ => (predSets i, some 1)
  | .pany _ => (predSets i, some 1)
  | .pall _ => (predSets i, some 1)
  | .pmov _ => (predSets i, some 1)
  | .cmp _ => (predSets i, some 1)
  | .cmpi _ => (predSets i, some 1)
  | .fcmp _ => (predSets i, some 2)
  | .vcmp _ => (predSets i, some 1)
  | .vcmpi _ => (predSets i, some 1)
  | .vfcmp _ => (predSets i, some 2)
  | .add o => a1 o 1
  | .sub o => a1 o 1
  | .mul o => a1 o 3
  | .mulh o => a1 o 3
  | .mulhu o => a1 o 3
  | .div o => sd o (divS o)
  | .rem o => sd o (divS o)
  | .divu o => sd o (divTime (ra o.a) (ra o.b))
  | .remu o => sd o (divTime (ra o.a) (ra o.b))
  | .min o => a1 o 1
  | .max o => a1 o 1
  | .minu o => a1 o 1
  | .maxu o => a1 o 1
  | .abs o => a1 o 1
  | .and o => a1 o 1
  | .or o => a1 o 1
  | .xor o => a1 o 1
  | .andn o => a1 o 1
  | .orn o => a1 o 1
  | .shl o => a1 o 1
  | .shr o => a1 o 1
  | .sar o => a1 o 1
  | .rotl o => a1 o 1
  | .shli o => a1 o 1
  | .shri o => a1 o 1
  | .sari o => a1 o 1
  | .clz o => a1 o 1
  | .ctz o => a1 o 1
  | .popc o => a1 o 1
  | .brev o => a1 o 1
  | .bfx o => a1 o 1
  | .bfxu o => a1 o 1
  | .bfi o => a1 o 1
  | .fshl o => a1 o 1
  | .fshr o => a1 o 1
  | .movi o => ([.a o.d], some 1)
  | .movl o => ([.a o.d], some 1)
  | .addi o => ([.a o.d], some 1)
  | .sel o => ([.a o.d], some 1)
  | .ldx o => ([.a o.d], some 6)
  | .ld o => ([.a o.d], none)
  | .atom o => ([.a o.d], none)
  | .cas o => ([.a o.d], none)
  | .csrr o => a1 o 2
  | .mbxr o => a1 o 2
  | .cyc o => a1 o 1
  | .wget o => (.a o.d :: predSets i, some 2)
  | .fadd o => a1 o 4
  | .fsub o => a1 o 4
  | .fmul o => a1 o 4
  | .ffma o => a1 o 4
  | .fcvt o => a1 o 4
  | .vadd o => v o 1
  | .vsub o => v o 1
  | .vmul o => v o 3
  | .vmulh o => v o 3
  | .vmulhu o => v o 3
  | .vmad o => v o 3
  | .vmin o => v o 1
  | .vmax o => v o 1
  | .vminu o => v o 1
  | .vmaxu o => v o 1
  | .vabs o => v o 1
  | .vand o => v o 1
  | .vor o => v o 1
  | .vxor o => v o 1
  | .vandn o => v o 1
  | .vshl o => v o 1
  | .vshr o => v o 1
  | .vsar o => v o 1
  | .vclz o => v o 1
  | .vpopc o => v o 1
  | .vbfx o => v o 1
  | .vbfxu o => v o 1
  | .vbfi o => v o 1
  | .vfshl o => v o 1
  | .vfshr o => v o 1
  | .vmovi o => ([.v o.bay o.d], some 1)
  | .vsel o => v o 1
  | .vaddsat o => v o 3
  | .vsubsat o => v o 3
  | .vdot4 o => v o 3
  | .vdot4s o => v o 3
  | .vdot2 o => v o 3
  | .vfadd o => v o 4
  | .vfsub o => v o 4
  | .vfmul o => v o 4
  | .vfma o => v o 4
  | .vbfma o => v o 4
  | .vfmin o => v o 4
  | .vfmax o => v o 4
  | .vfabs o => v o 2
  | .vfneg o => v o 2
  | .vfcvt o => v o 4
  | .vnrw o => (vRange o.bay o.d (codeRegs (st.cdesc o.b)), some (if cdSpan (st.cdesc o.b) = 3 then 28 else if cdSpan (st.cdesc o.b) = 2 then 16 else 12))
  | .vwdn o => (vRange o.bay o.d (wideRegs (st.cdesc o.b)), some (if cdSpan (st.cdesc o.b) = 3 then 26 else if cdSpan (st.cdesc o.b) = 2 then 14 else 10))
  | .vrcp o => v o 8
  | .vrsq o => v o 8
  | .vexp2 o => v o 12
  | .vlog2 o => v o 12
  | .vld o => v o 6
  | .vldg o => v o 8
  | .vshuf o => v o 2
  | .vred o => v o (if o.b < 8 then 4 else 10)
  | .vscan o => v o (if o.b % 16 < 8 then 6 else 20)
  | .vcntp o => v o 2
  | .vlane o => v o 1
  | .dcopy o => ([.a o.pr], some 2)
  | .dcopy2 o => ([.a o.pr], some 2)
  | .dgath o => ([.a o.pr], some 2)
  | .dfill o => ([.a o.pr], some 2)
  | .dtbl o => ([.a o.pr], some 2)
  | .dtblld o => ([.a o.rd], some 2)
  | .shut o => ([.a o.pr], some 2)
  | .deqNb _ => (predSets i, none)
  | .qctlOpen o => rd o
  | .qctlClose o => rd o
  | .qctlBackoff o => rd o
  | .qctlDepth o => rd o
  | .tsub o => rd o
  | .launch o => rd o
  | .jwait o => rd o
  | .jflags o => rd o
  | .pfxlook o => rd o
  | .pfxins o => rd o
  | .stopen o => rd o
  | .stclose o => rd o
  | .strung o => rd o
  | .frameRsv o => rd o
  | .framePub o => rd o
  | .frameChk o => rd o
  | .crset o => rd o
  | _ => ([], none)

def writesOf (st : Strand) (i : Instr) : List Reg := (destOf st i).1

/-- Registers that an outstanding result is to write; p0 is never written (file 01 R25). -/
def PendDest.regs : PendDest → List Reg
  | .a n => [.a n]
  | .p n => if n = 0 then [] else .ps n :: laneSets n
  | .ap r n => .a r :: (if n = 0 then [] else .ps n :: laneSets n)
  | .none => []

/-! ### Sticky slots (R129, R131) -/

/-- The address operands of an instruction, with the space that a stride field steps: 0 global, 1 W, 2 X, 3 tile; `none`: a pane handle,
which is not an address. -/
def State.addrsOf (s : State) (i : Instr) : List (Option Nat × Nat) :=
  let pane := fun (i buf x : Nat) => (some buf, s.paneArg i x)
  let de := fun (o : OpDE) => [if byHandle o then (none, 0) else (some o.ssp, s.deArg 0 o.ssp o.src), (some o.dsp, s.deArg 1 o.dsp o.dst)]
  let glob := fun (n : Nat) => [(some 0, s.addr 0 (s.aR n).toNat)]
  let entry := fun (n : Nat) => [(some (if s.supervising then 0 else 2), s.addr 0 (s.aR n).toNat)]
  let mma := fun (o : OpMA) => [(some 3, s.addr 0 o.td), pane 1 1 o.wp, pane 2 2 o.xp]
  let mx := fun (o : OpMX) => [(some 3, s.addr 0 o.t), pane 1 2 o.xp]
  let mt := fun (o : OpMT) => [(some 3, s.addr 0 o.td)]
  match i with
  | .vld o => [(some 2, s.rowAddr o)]
  | .vst o => [(some 2, s.rowAddr o)]
  | .vldg o => [(some 2, s.addr 0 (s.aR o.b).toNat)]
  | .vsts o => [(some 2, s.addr 0 (s.aR o.b).toNat)]
  | .mma o => mma o
  | .mmaz o => mma o
  | .mmag o => mma o
  | .mld o => mx o
  | .mst o => mx o
  | .mzero o => mt o
  | .mtrn o => mt o
  | .mrowmax o => mt o
  | .mrowsum o => mt o
  | .mscale o => mt o
  | .maddt o => mt o
  | .mwait o => if o.one = 1 then [(some 3, s.addr 0 o.td)] else []
  | .dcopy o => de o
  | .dcopy2 o => de o
  | .dgath o => de o
  | .dfill o => de o
  | .dtbl o => de o
  | .shut o => de o
  | .openp o => de o
  | .rsend o => de o
  | .rrecv o => de o
  | .enq o => entry o.rb
  | .deq o => entry o.rb
  | .deqNb o => entry o.rb
  | .dpref o => glob o.ra
  | .dflush o => glob o.ra
  | _ => []

/-- The step of a stride register for a space (R131). -/
def strideOf (w : Nat) (sp : Option Nat) : Int :=
  match sp with
  | some 0 => sextInt 24 (bits w 40 24)
  | some 1 => 64 * sextInt 16 (bits w 8 16)
  | some 2 => 64 * sextInt 16 (bits w 24 16)
  | some 3 => sextInt 6 (bits w 2 6)
  | _ => 0

/-- The stream register of a slot: d13 for the bays, d14 for M, d15 for D. -/
def strideReg (slot : Nat) : Nat := if slot < 10 then 13 else if slot = 10 then 14 else 15

/-- Recorded addresses, stepped in 64-bit two's complement. -/
def State.stepped (s : State) (slot : Nat) (r : Sticky) : List Nat :=
  let w := (s.dR (strideReg slot)).toNat
  ((s.addrsOf r.instr).zip r.addrs).map (fun p => (wrap64 ((p.2 : Int) + strideOf w p.1.1)).toNat)

/-! ### Energy weights (R315) -/

/-- The weight of an instruction in a slot. -/
def weightOf (slot : Nat) (i : Instr) : Nat :=
  if slot = 0 then 0
  else if slot = 1 then
    match i with
    | .mul _ => 2
    | .mulh _ => 2
    | .mulhu _ => 2
    | .div _ => 2
    | .divu _ => 2
    | .rem _ => 2
    | .remu _ => 2
    | .fadd _ => 2
    | .fsub _ => 2
    | .fmul _ => 2
    | .ffma _ => 2
    | .fcvt _ => 2
    | .fcmp _ => 2
    | .ldx _ => 2
    | .wget _ => 2
    | .ld _ => 2
    | .atom _ => 2
    | .cas _ => 2
    | _ => 1
  else
    match i with
    | .vldg _ => 2
    | .vrcp _ => 2
    | .vrsq _ => 2
    | .vred o => if o.b < 8 then 1 else 2
    | .vexp2 _ => 2
    | .vlog2 _ => 2
    | .vnrw _ => 2
    | .vwdn _ => 2
    | .vscan o => if o.b % 16 < 8 then 1 else 2
    | _ => 1

/-- The table sum of a bundle. -/
def tableSum (l : List IssueSlot) : Nat := l.foldl (fun n x => n + weightOf x.slot x.instr) 1

/-! ### Guards -/

/-- The instructions without a guard whose register lists begin with a predicate (R125, file 06 R217). -/
def unguarded : Instr → Bool
  | .pand _ => true
  | .por _ => true
  | .pxor _ => true
  | .pandn _ => true
  | .pmov _ => true
  | .pany _ => true
  | .pall _ => true
  | .vsel _ => true
  | _ => false

/-- Whether a slot's guard suppresses its register writes. -/
def State.suppressed (s : State) (x : IssueSlot) : Bool :=
  if unguarded x.instr then false else
  match readsOf {} x.instr with
  | .ps g :: _ => !s.pS g
  | .pl g b :: _ => !s.anyActive g b
  | _ => false

/-! ### Scratchpad banks and refresh (R311, R313) -/

/-- Whether a slot uses a scratchpad port as a thread access. -/
def usesPort : Instr → Bool
  | .vld _ => true
  | .vst _ => true
  | .vldg _ => true
  | .vsts _ => true
  | .ldx _ => true
  | .stx _ => true
  | _ => false

/-- The words that the active lanes of a bay's access address. -/
def State.laneWords (s : State) (x : IssueSlot) : List Nat :=
  let s : State := { s with iss := { s.iss with addrs := x.addrs } }
  let row := fun (o : OpV) => ((List.range 16).filter (s.active o.g o.bay)).map (fun l => (s.rowAddr o + 4 * l) / 4)
  let each := fun (o : OpV) => ((List.range 16).filter (s.active o.g o.bay)).map (fun l => s.laneAddr o l / 4)
  match x.instr with
  | .vld o => row o
  | .vst o => row o
  | .vldg o => each o
  | .vsts o => each o
  | _ => []

/-- Cycles that bank conflicts add to the issue of a bundle. -/
def State.bankCycles (s : State) (l : List IssueSlot) : Nat :=
  let ws := ((l.map s.laneWords).flatten).eraseDups
  ws.foldl (fun m w => Nat.max m ((ws.filter (fun v => v % 128 == w % 128)).length)) 1 - 1

/-- The slots of a bundle access the scratchpads: a suppressed slot does not. -/
def State.accesses (s : State) (l : List IssueSlot) : Bool := l.any (fun x => usesPort x.instr && !s.suppressed x)

/-- A cycle in a refresh slot of a core's buffers. -/
def State.inRefresh (s : State) (core t : Nat) : Bool := (s.course (courseOf core)).fast && core < 192 && t % 36 < 4

/-- A scratchpad access that meets a refresh slot waits until it is over. -/
def State.refreshWait (s : State) (core t : Nat) (l : List IssueSlot) : Nat :=
  if s.inRefresh core t && s.accesses l then t - t % 36 + 4 else t

/-- The cycle on which a bundle that issues at `t` ends: its issue cycle and those of its bank conflicts, which a refresh slot stalls, at the
clock of the core (R311, R313, file 15 R424). -/
def State.issueEnds (s : State) (core t : Nat) (l : List IssueSlot) : Nat :=
  let n := 1 + s.bankCycles l
  s.passEnd core (fun u => !(s.inRefresh core u && s.accesses l)) (20 * n + 64) t n

end Sys2Proof.Machine
end

