-- ==== Sys2Proof/Machine/Issue.lean ====
section
/-! DEFINITION. The issue of one repetition of a bundle (file 04 R119-R144; file 01 R35, R40; file 08 R317; file 16 R433, R434): fetch,
decoding, the group check, the scoreboard, energy, sticky slots; then its slots, in parallel, with the trap that R35 selects, and
its retirement. -/

namespace Sys2Proof.Machine

/-! ### The slots of a repetition (R129, R130) -/

/-- Whether a slot is sticky under a header. -/
def stickySlot (h : Header) (slot : Nat) : Bool :=
  if slot = 10 then h.stickyM else if slot = 11 then h.stickyD else 2 ≤ slot && h.stickyV

/-- A re-issue of a recorded operation. -/
def State.reissue (s : State) (slot : Nat) (r : Sticky) : IssueSlot :=
  { slot := slot, word := 0, instr := r.instr, addrs := some (s.stepped slot r) }

/-- The slots of repetition `rep` of a bundle, in the order of R124. A present sticky slot that holds no record in a later repetition
issues as written (log 99). -/
def State.issueSlots (s : State) (b : Bundle) (rep : Nat) : List IssueSlot :=
  let rec_ := fun (k : Nat) => NMap.get none s.st.sticky k
  let present := b.slots.map (fun (p : Nat × Nat × Instr) =>
    match (if stickySlot b.head p.1 && rep != 0 then rec_ p.1 else none) with
    | some r => { s.reissue p.1 r with word := p.2.1 }
    | none => { slot := p.1, word := p.2.1, instr := p.2.2 })
  let absent := ((List.range 12).filter (fun k => stickySlot b.head k && !b.slots.any (fun p => p.1 == k))).filterMap (fun k =>
    (rec_ k).map (s.reissue k))
  sortBy (fun (x : IssueSlot) => x.slot) (present ++ absent)

/-! ### Groups (R133, R134) -/

/-- C-slot instructions that end a group, whatever their guard. -/
def endsGroup : Instr → Bool
  | .br _ => true
  | .brl _ => true
  | .loop _ => true
  | .loopi _ => true
  | .loopm _ => true
  | .lexit _ => true
  | .sleep _ => true
  | .waitp _ => true
  | .bar _ => true
  | .phase _ => true
  | .trap _ => true
  | .tret _ => true
  | .sret _ => true
  | .exit _ => true
  | .yield _ => true
  | .csrw _ => true
  | _ => false

/-- The bundle itself ends its group: STOP, REPEAT, or an instruction that does. -/
def bundleEnds (b : Bundle) : Bool := b.head.stop || b.head.rep != 0 || b.slots.any (fun p => endsGroup p.2.2)

/-- Registers read and written by a bundle in a group, and the sticky records after it (instructions only). -/
def Strand.bundleRegs (st : Strand) (rec_ : NMap (Option Instr)) (b : Bundle) : List Reg × List Reg × NMap (Option Instr) :=
  let again := ((List.range 12).filter (fun k => stickySlot b.head k && !b.slots.any (fun p => p.1 == k))).filterMap (fun k =>
    (NMap.get none rec_ k).map (fun i => (k, i)))
  let is := b.slots.map (fun p => p.2.2) ++ again.map (·.2)
  let rec' := b.slots.foldl (fun m p => if stickySlot b.head p.1 then NMap.set none m p.1 (some p.2.2) else m) rec_
  (((is.map (readsOf st)).flatten ++ again.map (fun p => .d (strideReg p.1))), (is.map (writesOf st)).flatten, rec')

/-- Padding words that a scan passes over between two bundles: more than lie between two bundles of one program (R121). -/
def padLimit : Nat := 2 ^ 24

/-- Read and decode the bundle at an address as the group check sees it; padding is passed over. -/
def State.lookBundle (s : State) (k va : Nat) : Nat → Option (Nat × Bundle)
  | 0 => none
  | n + 1 =>
    match s.lookWord k va with
    | none => none
    | some w =>
      if w = paddingWord then s.lookBundle k ((va + 4) % 2 ^ 56) n else
      match s.lookWords k va (1 + (getHeader w).body) with
      | none => none
      | some ws =>
        match decodeBundle ws with
        | .ok b => some (va, b)
        | .error _ => none

/-- The rest of a group: the address of the first bundle that depends on an earlier one. `n` more bundles may belong to it;
`written` is what the bundles before have written. -/
def State.groupScan (s : State) (k : Nat) (written : List Reg) (rec_ : NMap (Option Instr)) (va : Nat) : Nat → Option Nat
  | 0 => none
  | n + 1 =>
    match s.lookBundle k va padLimit with
    | none => none
    | some (a, b) =>
      if b.head.rep != 0 then none else
      let (rs, ws, rec') := (s.strand k).bundleRegs rec_ b
      if (rs ++ ws).any (fun r => written.contains r) then some a
      else if bundleEnds b || (liveLevels (s.strand k).loops).any (fun l => l.last.toNat == a) then none
      else s.groupScan k (written ++ ws) rec' ((a + 4 * (1 + b.head.body)) % 2 ^ 56) n

/-- The dependence of the group that begins with bundle `b` at `va`, if there is one (R134). -/
def State.groupDependence (s : State) (k va : Nat) (b : Bundle) : Option Nat :=
  if bundleEnds b || (s.strand k).atLast then none else
  let rec_ : NMap (Option Instr) := (s.strand k).sticky.map (fun (p : Nat × Option Sticky) => (p.1, p.2.map (·.instr)))
  let (_, ws, rec') := (s.strand k).bundleRegs rec_ b
  s.groupScan k ws rec' ((va + 4 * (1 + b.head.body)) % 2 ^ 56) 15

/-! ### Waiting to issue (R136, R413, R433) -/

/-- The cycle from which every register of a list can be read and written; `none` while an outstanding result has no known time. -/
def Strand.readyAt (st : Strand) (regs : List Reg) (now : Nat) : Option Nat :=
  let t := (st.ready.filter (fun p => regs.contains p.1)).foldl (fun t p => Nat.max t p.2) now
  (st.pend.filter (fun p => p.dest.regs.any regs.contains)).foldl (fun t p =>
    match t with
    | none => none
    | some t => if p.done && !p.pcie then some (Nat.max t p.due) else none) (some t)

/-- Outstanding results whose time has come. -/
def Strand.settle (st : Strand) (now : Nat) : Strand :=
  (sortBy (fun (p : Pending) => p.due) (st.pend.filter (fun p => p.done && !p.pcie && p.due ≤ now))).foldl
    (fun st p => st.complete p p.value) st

/-- Results and transom writes whose time has come, in the order of their cycles; of one cycle the transom write remains (R137). -/
def Strand.arriveAll (st : Strand) (now : Nat) : Strand :=
  let dues := ((st.transom.map (·.due) ++ (st.pend.filter (fun p => p.done && !p.pcie)).map (·.due)).filter (· ≤ now)).eraseDups
  (sortBy id dues).foldl (fun st t => (st.settle t).landAll t) st

/-- W of a core at a cycle: the charges of its last 256 cycles. -/
def Core.window (K : Core) (now : Nat) : Nat :=
  (K.meter.filter (fun p => p.1 ≤ now && now < p.1 + 256)).foldl (fun n p => n + p.2) 0

/-- The energy test of R433; the supervisor cores have no budget. -/
def State.overBudget (s : State) (core t e : Nat) : Bool :=
  core < 192 && (s.cluster (clusterOf core)).budget < (s.core core).window t + s.engineUnits core t + e

/-- The strand does not issue before cycle `t`; its bundle is tried again then. -/
def State.retryAt (s : State) (t : Nat) : State := { s.holdUntil t with iss := { s.iss with blocked := true } }

/-- The earliest cycle on which a strand can issue on its core; `none` where a pre-emption point comes first (file 15 R412). -/
def State.issueAt (s : State) (core k : Nat) : Option Nat :=
  match s.passFrom core (Nat.max (Nat.max s.cycle (s.core core).nextIssue) (s.strand k).notBefore) 40 with
  | some t => if s.barred core t then none else some t
  | none => none

/-- The opcode of a slot where it is illegal, whatever the state: on no core assigned (R144), or on a supervisor core not executed (R32,
R143). -/
def illegalSlot (supervisor : Bool) (ws : List Nat) (x : Slot) : Option Nat :=
  let op := x.opcode ws
  if supervisor && 2 ≤ x.slot && x.slot ≤ 10 then some op
  else if supervisor && x.slot = 11 && (op < 8 || op = 0x10 || op = 0x11) then some op
  else match x.instr with
    | .error (.unassignedOpcode o) => some o
    | .ok (.rsend o) => if supervisor && o.ssp != 0 then some op else none
    | .ok (.rrecv o) => if supervisor && o.dsp != 0 then some op else none
    | _ => none

/-- The first illegal opcode of a bundle, in the order of R124: its slot and opcode. -/
def illegalIn (supervisor : Bool) (ws : List Nat) : Option (Nat × Nat) :=
  (slotsOf (getHeader (wordAt ws 0)) ws).findSome? (fun x => (illegalSlot supervisor ws x).map (fun op => (x.slot, op)))

/-- The bundle of a list of words without the slots whose opcodes are illegal: what they cannot do, the others may still trap on (R35). -/
def legalPart (supervisor : Bool) (ws : List Nat) : Bundle :=
  let h := getHeader (wordAt ws 0)
  { head := h,
    slots := (slotsOf h ws).filterMap (fun x =>
      match illegalSlot supervisor ws x, x.instr with
      | none, .ok i => some (x.slot, x.word, i)
      | _, _ => none) }

/-! ### BUNDLE_REPETITION -/

/-- A core takes a strand to issue (R16): by a switch if another strand held it. -/
def State.takeCore (s : State) (core k : Nat) : State :=
  match (s.core core).slot with
  | some j => if j = k then s else s.switchTo core (Nat.max s.cycle (s.core core).nextIssue) k
  | none => s.updCore core (fun K => { K with slot := some k })

/-- Transom writes land and outstanding results arrive, in the order of their cycles (R137). -/
def State.beforeIssue (s : State) (t : Nat) : State :=
  { (s.setSt (fun st => st.arriveAll t)) with cycle := Nat.max s.cycle t, iss := {} }

/-- The view through which a bundle is fetched: where a fetch begun before a renewal may still deliver the old bundle, it is free
(R159). -/
def State.fetchView (s : State) : State × List Renewal :=
  match s.st.stale with
  | some (t, old) =>
    if t = s.st.pc then
      ({ (s.setSt (fun st => { st with stale := none })) with freeN := s.freeN + 1 },
       if Config.staleFetch s.freeN then old else s.st.irenew)
    else (s.setSt (fun st => { st with stale := none }), s.st.irenew)
  | none => (s, s.st.irenew)

/-- Pass over padding (R121): at most `n` words; sequential flow above a loop's end pops its level (R163). -/
def State.passPadding (s : State) (rs : List Renewal) : Nat → State
  | 0 => s
  | n + 1 =>
    match s.fetchWord s.cur s.st.pc.toNat rs with
    | (s', .ok w) =>
      if w = paddingWord then (s'.setSt (fun st => { st with pc := st.pc + 4, loops := popPassed (st.pc + 4) st.loops })).passPadding rs n
      else s
    | _ => s

/-- The bundle is decoded and issues at cycle `t`: the issue record of its slots, the next issue point, and its energy charged, once for a
bundle whose boundary is in progress. -/
def State.startIssue (s : State) (core t : Nat) (b : Bundle) (slots : List IssueSlot) : State :=
  let e := s.issueEnds core t slots
  let s := s.updCore core (fun K =>
    { K with nextIssue := e, bundleEnd := e,
             meter := K.meter.filter (fun p => t < p.1 + 256) ++ (if s.st.bnd.isSome then [] else [(t, b.head.energy)]) })
  let s := s.setSt (fun st => { st with issues := st.issues + 1, ready := st.ready.filter (fun p => t < p.2), masked := st.masked.filter (fun m => t < m.2.1) })
  { s with
    cycle := Nat.max s.cycle t
    iss := { start := s.st.pc, bytes := 4 * (1 + b.head.body), rept := b.head.rep, energy := b.head.energy, stop := b.head.stop,
             stickyV := b.head.stickyV, stickyM := b.head.stickyM, stickyD := b.head.stickyD, slots := slots,
             snap := some s.st, tsnap := some s.tm, mops := some (s.mOps (teamOf s.cur)), groupEnd := bundleEnds b || s.st.grpPos ≥ 15 } }

/-- A decoded bundle at the strand's pc: the group check at the start of a group, then the waits before it issues. A dependence traps when
the bundle would issue, unless an illegal encoding or opcode comes first (R35): one that decoding `found`, or an overlap of the predicate
writes of the slots with a re-issue (R135); a re-issue of an absent slot has no word, and counts with the header's index (log 115). -/
def State.issueDecoded (s : State) (core t : Nat) (b : Bundle) (found : Option TrapRec) : State :=
  let st := s.st
  let first := st.grpPos = 0 || !st.grpChecked || (b.head.rep != 0 && st.rep = 0)
  let dep := if first then s.groupDependence s.cur st.pc.toNat b else none
  let s := if first then s.setSt (fun st => { st with grpPos := 0, grpStart := st.pc, grpChecked := true }) else s
  let slots := s.issueSlots b st.rep
  let regs := (slots.map (fun x => readsOf st x.instr ++ writesOf st x.instr)).flatten ++
    (slots.filter (fun x => x.addrs.isSome)).map (fun x => .d (strideReg x.slot))
  match st.readyAt regs t with
  | none => s.retryAt (t + 1)
  | some u =>
    let u := s.refreshWait core u slots
    if u != t then s.retryAt u
    else if st.bnd.isNone && s.overBudget core t b.head.energy then s.retryAt (t + 1)
    else
      let s := s.startIssue core t b slots
      { s with iss := { s.iss with
          depend := dep
          found := match leastOf (overlaps [] (slots.map (fun x => (x.word, x.instr)))) with
            | some n => some (illegalEncoding n)
            | none => found } }

/-- Fetch and decode the bundle at the strand's pc (R119-R122, R144). A fault of the fetch of a body word comes before every trap of the
bundle but KIND (log 125). -/
def State.fetchBundle (s : State) (core t : Nat) (rs : List Renewal) : State :=
  let pc := s.st.pc.toNat
  match s.fetchWord s.cur pc rs with
  | (s, .error c) => s.raise { prio := if c = 0x40 then 100 else 101, code := c, tinfo := BitVec.ofNat 64 pc }
  | (s, .ok w) =>
    let h := getHeader w
    if w = paddingWord then s.retryAt t
    else if h.kind != 0 then s.raise (illegalEncoding 0)
    else if s.st.rep > h.rep then
      { (s.setSt (fun st => { st with pc := st.pc + BitVec.ofNat 56 (4 * (1 + h.body)), rep := 0 })).retryAt t with iss := { blocked := true } }
    else match s.fetchWords s.cur pc rs (1 + h.body) with
      | (s, .error (c, a)) => s.raise { prio := if c = 0x40 then 100 else 101, code := c, tinfo := BitVec.ofNat 64 a }
      | (s, .ok ws) =>
        let sup := isSupervisor (teamOf s.cur)
        match decodeBundle ws, illegalIn sup ws with
        | .error (.illegalEncoding n), _ => s.raise (illegalEncoding n)
        | .error (.illegalOpcode k op), none => s.issueDecoded core t (legalPart sup ws) (some (illegalOpcode k op))
        | _, some (k, op) => s.issueDecoded core t (legalPart sup ws) (some (illegalOpcode k op))
        | .ok b, none => s.issueDecoded core t b none

/-- One repetition of a bundle of the issuing strand issues: its slots stand in the issue record, or a trap has been taken, or the bundle
is to be tried again. -/
def execBundleRepetition (s : State) : Result :=
  let core := s.coreOf (teamOf s.cur)
  let s := s.takeCore core s.cur
  .next (match s.issueAt core s.cur with
    | none => s.retryAt (s.cycle + 1)
    | some t =>
      let s := s.beforeIssue t
      let (s, rs) := s.fetchView
      let s := s.passPadding rs 64
      let s := s.fetchBundle core t rs
      if s.iss.trap.isSome then
        s.updCore core (fun K => { K with nextIssue := Nat.max K.nextIssue (t + 1), bundleEnd := Nat.max K.bundleEnd (t + 1) })
      else s)

/-! ### Performing the slots (R11, R35, R138) -/

/-- A slot as it is performed. -/
def State.atSlot (s : State) (x : IssueSlot) : State := { s with iss := { s.iss with word := x.word, slot := x.slot, addrs := x.addrs } }

/-- The strand's bundle is tried again at a cycle. -/
def Strand.tryAt (st : Strand) (t : Nat) : Strand := { st with run := .ready, notBefore := t }

/-- The bundle has not issued: its energy is not charged and its issue is not counted. A stalled strand tries again on the next cycle (R247,
R263), and the spill unit takes the item it waits for first (file 15 R418); one that blocks waits (R16). A bundle whose boundary begins has
issued, and takes effect at its publication point (file 15 R414). -/
def State.unissue (s : State) (base : State) (run : Run) : State :=
  let core := s.coreOf (teamOf s.cur)
  let begun := match run with
    | .blocked (.until _) => true
    | _ => base.st.bnd.isSome
  let s := { base with freeN := s.freeN, iss := { base.iss with blocked := true } }
  let s := s.updCore core (fun K =>
    { K with meter := if begun then K.meter else K.meter.dropLast, nextIssue := s.cycle, bundleEnd := s.cycle })
  let s := match run with
    | .blocked (.place i) => s.touchItem (teamOf s.cur) i
    | _ => s
  s.setSt (fun st =>
    let st := { st with issues := st.issues - 1 }
    match run with
    | .blocked .stall => st.tryAt (s.cycle + 1)
    | .blocked (.place _) => st.tryAt (s.cycle + 1)
    | .blocked (.until p) => { st.tryAt p with bnd := some p }
    | r => { st with run := r })

/-- What a slot did when performed alone: a trap, a block, the flags it raised. -/
structure SlotEnd where
  slot : Nat
  trap : Option TrapRec
  run : Run
  blocked : Bool
  flags : Flags
  freeN : Nat

def slotEnd (base : State) (x : IssueSlot) (s : State) : SlotEnd :=
  { slot := x.slot, trap := s.iss.trap, run := (s.strand base.cur).run, blocked := s.iss.blocked,
    flags := match x.instr with | .csrw _ => 0 | _ => (s.strand base.cur).flags,
    freeN := s.freeN }

/-- Perform each slot alone from the state before the bundle, FLAGS clear. -/
def trialSlots (run : Instr → State → Result) (base : State) : List IssueSlot → Except Result (List SlotEnd)
  | [] => .ok []
  | x :: r =>
    match run x.instr ((base.setSt (fun st => { st with flags := 0 })).atSlot x) with
    | .next s =>
      match trialSlots run base r with
      | .ok l => .ok (slotEnd base x s :: l)
      | e => e
    | o => .error o

/-- The illegal-dependence trap of a group (R34, R134). -/
def dependTrap (second : Nat) : TrapRec := { prio := 30, code := 0x03, tinfo := BitVec.ofNat 64 second }

/-- The first of two traps in the order of R35; of two illegal encodings the lower word index, of two illegal opcodes the first slot (R144). -/
def earlierTrap : Option TrapRec → Option TrapRec → Option TrapRec
  | none, b => b
  | a, none => a
  | some a, some b => if b.prio < a.prio || (b.prio == a.prio && b.tinfo.toNat < a.tinfo.toNat) then some b else some a

/-- The first trap in the order of R35, of the first slot among equals, with what decoding found and the dependence of the group the bundle
begins; an arithmetic trap describes the whole bundle (R210). -/
def bundleTrap (found : Option TrapRec) (depend : Option Nat) (l : List SlotEnd) : Option TrapRec :=
  let flags := orFlags (l.map (fun (e : SlotEnd) => e.flags))
  let best := l.foldl (fun (b : Option TrapRec) x =>
    match b, x.trap with
    | none, t => t
    | some r, some t => if t.prio < r.prio then some t else some r
    | some r, none => some r) none
  let best := earlierTrap (earlierTrap found best) (depend.map dependTrap)
  best.map (fun r => if r.code = 0x08 then { r with tinfo := flags.zeroExtend 64, flags := flags } else r)

/-- Perform the slots in order on one state. -/
def performSlots (run : Instr → State → Result) (s : State) : List IssueSlot → Result
  | [] => .next s
  | x :: r =>
    match run x.instr (s.atSlot x) with
    | .next s => if s.iss.trap.isSome then .next s else performSlots run s r
    | o => o

/-- The order in which the effects of slots are taken: the C slot after the others (R138). -/
def effectOrder (l : List IssueSlot) : List IssueSlot := l.filter (fun x => x.slot != 0) ++ l.filter (fun x => x.slot == 0)

/-! ### Retirement (R129, R131, R305, R317, R434) -/

/-- The sticky slots' records after the repetition, from the state before it. -/
def State.recordSticky (s base : State) : State :=
  let add := fun (m : NMap (Option Sticky)) (x : IssueSlot) =>
    let on := if x.slot = 10 then s.iss.stickyM else if x.slot = 11 then s.iss.stickyD else 2 ≤ x.slot && s.iss.stickyV
    if on then NMap.set none m x.slot (some { instr := x.instr, addrs := ((base.atSlot x).addrsOf x.instr).map (·.2) }) else m
  s.setSt (fun st => { st with sticky := s.iss.slots.foldl add st.sticky })

/-- Lanes of a bay that a slot writes in its destination: the active ones; VSEL is unguarded (file 06 R211, R217). -/
def State.lanesOf (s : State) (x : IssueSlot) : List Nat :=
  if unguarded x.instr then List.range 16 else
  match readsOf {} x.instr with
  | .pl g b :: _ => (List.range 16).filter (s.active g b)
  | _ => List.range 16

/-- Lanes that a slot writes in v register `v` of its bay: of VNRW those of its code stream (file 06 R227). -/
def State.lanesIn (s : State) (x : IssueSlot) (v : Nat) : List Nat :=
  match x.instr with
  | .vnrw o =>
    let c := s.st.cdesc o.b
    (s.lanesOf x).filter (fun l => cdDoff c ≤ 16 * (v - o.d) + l && 16 * (v - o.d) + l < cdDoff c + cdBytes c / 4)
  | _ => s.lanesOf x

/-- The transom writes that land while an ordinary write of their register, of the bundle that issues now, is under way: no later bundle
reads the register before both are done, so they are taken first (R137). -/
def State.overtaken (s : State) : List TransomWrite :=
  let outs := ((s.iss.slots.filter (fun x => !s.suppressed x)).map (fun x =>
    match destOf s.st x.instr with
    | (rs, some n) => rs.map (fun r => (r, s.cycle + n))
    | _ => [])).flatten
  s.st.transom.filter (fun w => outs.any (fun p => p.1 == w.dest.reg && decide (w.due < p.2)))

def State.landEarly (s : State) : State :=
  let l := s.overtaken
  s.setSt (fun st =>
    (sortBy (fun (w : TransomWrite) => w.due) l).foldl Strand.land { st with transom := st.transom.filter (fun w => !l.contains w) })

/-- The results of the bundle become readable after their latencies, which count from the first of its issue cycles where bank conflicts add to
them (log 116). -/
def State.pushReady (s base : State) : State :=
  let now := s.cycle
  let lanes := ((s.iss.slots.filter (fun x => !base.suppressed x)).map (fun x =>
    match destOf base.st x.instr with
    | (rs, some n) => rs.filterMap (fun r => match r with
      | .v bay v => some (64 * bay + v, now + n, base.lanesIn x v)
      | _ => none)
    | _ => [])).flatten
  let new := ((s.iss.slots.filter (fun x => !base.suppressed x)).map (fun x =>
    match destOf base.st x.instr with
    | (rs, some n) => rs.map (fun r => (r, now + n))
    | _ => [])).flatten
  s.setSt (fun st => { st with ready := st.ready ++ new, masked := st.masked ++ lanes })

/-- The meter's measured energy (R317): charged where it exceeds the declared energy by more than 1 unit, and posted once a control period; of a
bundle whose table sum exceeds 15 any excess is charged, and none posted. -/
def State.underDeclared (s : State) : State :=
  let core := s.coreOf (teamOf s.cur)
  let e := s.iss.energy
  let m := Config.measured s.freeN e
  let beyond := e = 15 && 15 < tableSum s.iss.slots
  let excess := if beyond then decide (e < m) else decide (e + 1 < m)
  let t := s.cycle
  let T := s.tm
  let rec_ : Record := { kind := 5, code := 1, asid := T.asid, tinfo := s.iss.start.toNat, lh := T.lh, core := T.idx, strand := strandIdx s.cur,
                         token := teamOf s.cur % 65536, coreId := s.coreId s.cur }
  let tell := excess && !(s.core core).udecl && !beyond
  let s := { s with freeN := s.freeN + 1 }.updCore core (fun K =>
    { K with meter := if excess then K.meter ++ [(t, m - e)] else K.meter, udecl := K.udecl || tell })
  if tell then s.post rec_ else s

/-- The end of a repetition whose slots have all taken effect. -/
def State.finishBundle (s base : State) : State :=
  let s := (s.recordSticky base).pushReady base
  let s := if s.iss.retired then s else s.retire
  s.underDeclared

/-- Perform the slots of the bundle that has issued. A bundle of one slot is performed once; in another, the slots are first tried one
by one for the traps and blocks that stop the whole bundle. -/
def runSlots (run : Instr → State → Result) (s : State) : Result :=
  if s.iss.trap.isSome || s.iss.blocked then .next s else
  let l := s.iss.slots
  match l, s.iss.found.isNone && s.iss.depend.isNone && s.overtaken.isEmpty with
  | [x], true =>
    match run x.instr (s.atSlot x) with
    | .next s' =>
      if s'.iss.trap.isSome then .next s'
      else if s'.iss.blocked then .next (s'.unissue s (s'.strand s.cur).run)
      else .next (s'.finishBundle s)
    | o => o
  | _, _ =>
    match trialSlots run s l with
    | .error o => o
    | .ok ends =>
      let s0 := { s with freeN := (ends.map (fun (e : SlotEnd) => e.freeN)).foldl Nat.max s.freeN }
      match bundleTrap s.iss.found s.iss.depend ends with
      | some r => .next (s0.raise r)
      | none =>
        match ends.find? (fun (e : SlotEnd) => e.blocked) with
        | some e => .next (s0.unissue s e.run)
        | none =>
          match performSlots run s.landEarly (effectOrder l) with
          | .next s' =>
            match s'.iss.trap with
            | some r => .next ({ s0 with freeN := Nat.max s0.freeN s'.freeN }.raise r)
            | none => if s'.iss.blocked then .next (s'.unissue s (s'.strand s.cur).run) else .next (s'.finishBundle s)
          | o => o

end Sys2Proof.Machine
end

