-- ==== Sys2Proof/Machine/RingEngine.lean ====
section
/-! DEFINITION. The ring engine (file 07 R289; file 18 R459-R462, R467): RSEND, RRECV, and the completion of a pair. -/

namespace Sys2Proof.Machine

/-- The step tag and the port of a ring register (R289). -/
def ringTag (w : Word) : Nat := bits w.toNat 32 32
def ringPort (w : Word) : Nat := bits w.toNat 0 2

/-- A command on the port fails at once (R459, R462, R467). -/
def State.portDead (s : State) (p : Nat) : Bool :=
  let P := s.port p
  !P.en || P.aborted || (P.idereq && !P.ideok)

/-- Enter the D queue and reach the port (R289, R462). -/
def State.ringCommand (s : State) (i : Instr) (send : Bool) (a n sp : Nat) (w : Word) : State :=
  let t := teamOf s.cur
  let p := ringPort w
  let items := deItems sp a n
  if s.dQueue (s.coreOf t) ≥ 16 then s.block .stall else
  let id := s.nextCmd
  let s := s.enqueueD { id := 0, strand := s.cur, op := i, src := a, dst := a, aux := w, n := n, items := items, ring := some (p, ringTag w) }
    items 0 none none
  if s.portDead p then s.failRing t id send
  else
    -- a revolution begins anew with its first command
    let s := s.updPort p (fun P => { P with gone := P.gone.filter (fun g => g != (tagLayer (ringTag w), tagFrame (ringTag w))) })
    s.setRingQueue p (s.ringQueue p ++ [{ team := t, cmd := id, send := send, tag := ringTag w, units := n, since := s.cycle }])

def execRsend (o : OpDE) (s : State) : Result :=
  .next (s.guarded o.g (fun s =>
    let n := o.np + 1
    let a := s.deArg 0 o.ssp o.src
    let w := s.aR o.aux
    s.checked (s.deChecks o.ssp a n ++ s.regCheck (ringPort w == 3)) (fun s => s.ringCommand (.rsend o) true a n o.ssp w)))

def execRrecv (o : OpDE) (s : State) : Result :=
  .next (s.guarded o.g (fun s =>
    let n := o.np + 1
    let a := s.deArg 1 o.dsp o.dst
    let w := s.aR o.aux
    s.checked (s.deChecks o.dsp a n ++ s.regCheck (ringPort w == 3)) (fun s => s.ringCommand (.rrecv o) false a n o.dsp w)))

/-! ### RING_PAIR_COMPLETE (R289) -/

/-- Bytes of one unit on the wire: a pane's data, margin and descriptor, or 4 KiB of global memory. -/
def ringUnit (sp : Nat) : Nat := if sp = 0 then 4096 else 4096 + 512 + 4

/-- Send the units of a command: what the port transmits to the ring window of NEXT (file 18 R459, R460). -/
def EngRun.ringSend (r : EngRun) (c : Cmd) (sp : Nat) : EngRun :=
  let (r, bs) := if sp = 0 then
      (List.range (16 * c.n)).foldl (fun (q : EngRun × List Byte) j =>
        if q.1.err.isSome then q else
        let (r, b) := q.1.readAt (c.src + 256 * j) 256
        (r, q.2 ++ b)) (r, [])
    else (r, ((deItems sp c.src c.n).map (fun i =>
      NMap.getList 0 r.T.pane (paneBase i) 4096 ++ r.T.marginAt i 0 512 ++ leBytes 4 (r.T.descOf i))).flatten)
  r.go (fun r => { r with out := r.out ++ [{
    port := 1 + (c.ring.getD (0, 0)).1, addr := 2 ^ 26 * (r.s.port (c.ring.getD (0, 0)).1).next, kind := 3,
    op := (c.ring.getD (0, 0)).2, data := bs }] })

/-- Receive the units of a command (R289, R72). -/
def EngRun.ringRecv (r : EngRun) (c : Cmd) (sp : Nat) (data : List Byte) : EngRun :=
  if sp = 0 then
    r.each ((List.range (16 * c.n)).zip (chunks 256 data)) (fun r p => r.writeAt (c.dst + 256 * p.1) p.2)
  else
    r.pane (fun T => ((deItems sp c.dst c.n).zip (chunks (ringUnit sp) data)).foldl (fun T p =>
      (({ T with pane := NMap.setList 0 T.pane (paneBase p.1) (p.2.take 4096) }).setMargin p.1 0 ((p.2.drop 4096).take 512)).setDesc p.1
        (leNat (p.2.drop 4608))) T)

/-- The space of the local side. -/
def ringSpace : Instr → Nat
  | .rsend o => o.ssp
  | .rrecv o => o.dsp
  | _ => 0

/-- A pair completes: `ok` is its result at the port, `data` what an RRECV received. A transfer that ends with an error, unequal
counts among them, abandons its revolution (R462): the pair then fails with 0x14 besides the error of a local access. `send`: the side of
the pair that is here. -/
def State.ringPairNow (s : State) (port tag : Nat) (send ok : Bool) (data : List Nat) : State :=
  match (s.ringQueue port).find? (fun r => r.tag == tag && r.send == send) with
    | none => s
    | some r =>
      match (s.team r.team).cmds.find? (fun c => c.id == r.cmd) with
      | none => s
      | some c =>
        if !s.engineReady r.team c then s else
        let sp := ringSpace c.op
        let s := { s with cycle := Nat.max s.cycle c.due }
        if !ok || (!r.send && data.length != c.n * ringUnit sp) then s.abandon port (tagLayer tag) (tagFrame tag) else
        let run : EngRun := { s := s, team := r.team, asid := c.asid, pos := c.pos, T := s.team r.team }
        let run := if r.send then run.ringSend c sp else run.ringRecv c sp (data.map (BitVec.ofNat 8))
        let s := (run.s.finishCmd r.team c run).charge (s.coreOf r.team) c.n [s.cycle]
        let s := if run.err.isSome then s.abandon port (tagLayer tag) (tagFrame tag) else s
        s.setRingQueue port ((s.ringQueue port).erase r)

/-- A pair whose local side is global memory is held while the home slices move (file 13 R375). Landing writes of another requester than PREVRID
are not accepted (file 18 R459), and what an Insecure IDE stream carries is dropped (R467). -/
def execRingPairComplete (port : Nat) (side : RingSide) (ok : Bool) (data : List Nat) (s : State) : Result :=
  let glob := (s.ringQueue port).any (fun r => r.tag == side.tag && r.send == side.send &&
    (s.team r.team).cmds.any (fun c => c.id == r.cmd && ringSpace c.op == 0))
  .next (if s.insecure (port + 1) (neighbour side.send) || (!side.send && side.rid != (s.port port).prevrid) then s
    else if s.holding && glob then { s with held := s.held ++ [.ringPair port side.tag side.send ok data] }
    else s.ringPairNow port side.tag side.send ok data)

/-! ### Accesses held during a role change (file 13 R371-R375) -/

/-- Perform an access or a STOPEN that was held (R372, R375). -/
def State.performHeld (s : State) : HeldReq → State
  | .stopen k va =>
    let (s, v) := s.accept (s.team (teamOf k)).asid va
    s.finishPend k v
  | .bar2Write asid va bs => s.bar2WriteNow asid va bs
  | .bar2Read asid va n => s.bar2ReadNow asid va n
  | .bar2Atomic asid va n op v c => s.bar2AtomicNow asid va n op v c
  | .ringPair port tag send ok data => s.ringPairNow port tag send ok data
  | .jcb lh asid va u => s.hwJcb lh asid va u
  | .ring asid r => s.writeRing asid r

def State.performAllHeld (s : State) : State :=
  let held := s.held
  { s with held := [] }.forEach held State.performHeld

/-- The test step ends (R371, R372): CRSET's code is returned; an accepted map begins the drain. -/
def execRoleChangeTestDone (s : State) : Result :=
  if s.rcState != 1 then .next s else
  let code := if !legalMap s.cls s.boot.cfence s.pendMap then 1 else if !s.testMap s.pendMap then 2 else 0
  let s := s.finishPend s.rcStrand code
  .next (if code != 0 || s.rcDry then ({ s with rcState := 0, pendMap := s.roleMap, rcDry := false } : State).performAllHeld else s.startDrain)

/-- The flush ends: the block cache is empty, the partition is re-enumerated, the held accesses are performed at their new homes,
and selection resumes (R371, R373, R375). -/
def execRoleChangeFlushDone (s : State) : Result :=
  if s.rcState != 3 then .next s else
  let s := ({ s with cache := [], rcSkipTest := false }).enumerate s.pendMap
  .next ({ s with rcState := 0 } : State).performAllHeld

end Sys2Proof.Machine
end

