-- ==== Sys2Proof/Machine/Dispatch.lean ====
section
/-! DEFINITION. The dispatch: one arm for each constructor of Instr. -/

namespace Sys2Proof.Machine

/-- The meaning of an instruction or event. -/
def exec (i : Instr) (s : State) : Host.Outcome State Fault Refusal :=
  match i with
  | .bundleRepetition => Sys2Proof.Machine.execBundleRepetition s
  | .globalAccessComplete strand ok value => Sys2Proof.Machine.execGlobalAccessComplete strand ok value s
  | .pbr o => Sys2Proof.Machine.execPbr o s
  | .pbrx o => Sys2Proof.Machine.execPbrx o s
  | .br o => Sys2Proof.Machine.execBr o s
  | .brl o => Sys2Proof.Machine.execBrl o s
  | .loop o => Sys2Proof.Machine.execLoop o s
  | .loopi o => Sys2Proof.Machine.execLoopi o s
  | .loopm o => Sys2Proof.Machine.execLoopm o s
  | .lexit o => Sys2Proof.Machine.execLexit o s
  | .sleep o => Sys2Proof.Machine.execSleep o s
  | .sleepWake strand => Sys2Proof.Machine.execSleepWake strand s
  | .waitp o => Sys2Proof.Machine.execWaitp o s
  | .bar o => Sys2Proof.Machine.execBar o s
  | .phase o => Sys2Proof.Machine.execPhase o s
  | .trap o => Sys2Proof.Machine.execTrap o s
  | .tret o => Sys2Proof.Machine.execTret o s
  | .sret o => Sys2Proof.Machine.execSret o s
  | .exit o => Sys2Proof.Machine.execExit o s
  | .yield o => Sys2Proof.Machine.execYield o s
  | .pand o => Sys2Proof.Machine.execPand o s
  | .por o => Sys2Proof.Machine.execPor o s
  | .pxor o => Sys2Proof.Machine.execPxor o s
  | .pandn o => Sys2Proof.Machine.execPandn o s
  | .pany o => Sys2Proof.Machine.execPany o s
  | .pall o => Sys2Proof.Machine.execPall o s
  | .pmov o => Sys2Proof.Machine.execPmov o s
  | .add o => Sys2Proof.Machine.execAdd o s
  | .sub o => Sys2Proof.Machine.execSub o s
  | .mul o => Sys2Proof.Machine.execMul o s
  | .mulh o => Sys2Proof.Machine.execMulh o s
  | .mulhu o => Sys2Proof.Machine.execMulhu o s
  | .div o => Sys2Proof.Machine.execDiv o s
  | .divu o => Sys2Proof.Machine.execDivu o s
  | .rem o => Sys2Proof.Machine.execRem o s
  | .remu o => Sys2Proof.Machine.execRemu o s
  | .min o => Sys2Proof.Machine.execMin o s
  | .max o => Sys2Proof.Machine.execMax o s
  | .minu o => Sys2Proof.Machine.execMinu o s
  | .maxu o => Sys2Proof.Machine.execMaxu o s
  | .abs o => Sys2Proof.Machine.execAbs o s
  | .and o => Sys2Proof.Machine.execAnd o s
  | .or o => Sys2Proof.Machine.execOr o s
  | .xor o => Sys2Proof.Machine.execXor o s
  | .andn o => Sys2Proof.Machine.execAndn o s
  | .orn o => Sys2Proof.Machine.execOrn o s
  | .shl o => Sys2Proof.Machine.execShl o s
  | .shr o => Sys2Proof.Machine.execShr o s
  | .sar o => Sys2Proof.Machine.execSar o s
  | .rotl o => Sys2Proof.Machine.execRotl o s
  | .shli o => Sys2Proof.Machine.execShli o s
  | .shri o => Sys2Proof.Machine.execShri o s
  | .sari o => Sys2Proof.Machine.execSari o s
  | .clz o => Sys2Proof.Machine.execClz o s
  | .ctz o => Sys2Proof.Machine.execCtz o s
  | .popc o => Sys2Proof.Machine.execPopc o s
  | .brev o => Sys2Proof.Machine.execBrev o s
  | .bfx o => Sys2Proof.Machine.execBfx o s
  | .bfxu o => Sys2Proof.Machine.execBfxu o s
  | .bfi o => Sys2Proof.Machine.execBfi o s
  | .fshl o => Sys2Proof.Machine.execFshl o s
  | .fshr o => Sys2Proof.Machine.execFshr o s
  | .movi o => Sys2Proof.Machine.execMovi o s
  | .movl o => Sys2Proof.Machine.execMovl o s
  | .addi o => Sys2Proof.Machine.execAddi o s
  | .cmp o => Sys2Proof.Machine.execCmp o s
  | .cmpi o => Sys2Proof.Machine.execCmpi o s
  | .sel o => Sys2Proof.Machine.execSel o s
  | .fcmp o => Sys2Proof.Machine.execFcmp o s
  | .ld o => Sys2Proof.Machine.execLd o s
  | .st o => Sys2Proof.Machine.execSt o s
  | .ldx o => Sys2Proof.Machine.execLdx o s
  | .stx o => Sys2Proof.Machine.execStx o s
  | .atom o => Sys2Proof.Machine.execAtom o s
  | .cas o => Sys2Proof.Machine.execCas o s
  | .csrr o => Sys2Proof.Machine.execCsrr o s
  | .csrw o => Sys2Proof.Machine.execCsrw o s
  | .mbxr o => Sys2Proof.Machine.execMbxr o s
  | .mbxw o => Sys2Proof.Machine.execMbxw o s
  | .cyc o => Sys2Proof.Machine.execCyc o s
  | .xmovaB o => Sys2Proof.Machine.execXmovaB o s
  | .xmovaV o => Sys2Proof.Machine.execXmovaV o s
  | .xmovaPair o => Sys2Proof.Machine.execXmovaPair o s
  | .wget o => Sys2Proof.Machine.execWget o s
  | .wrange o => Sys2Proof.Machine.execWrange o s
  | .fadd o => Sys2Proof.Machine.execFadd o s
  | .fsub o => Sys2Proof.Machine.execFsub o s
  | .fmul o => Sys2Proof.Machine.execFmul o s
  | .ffma o => Sys2Proof.Machine.execFfma o s
  | .fcvt o => Sys2Proof.Machine.execFcvt o s
  | .vadd o => Sys2Proof.Machine.execVadd o s
  | .vsub o => Sys2Proof.Machine.execVsub o s
  | .vmul o => Sys2Proof.Machine.execVmul o s
  | .vmulh o => Sys2Proof.Machine.execVmulh o s
  | .vmulhu o => Sys2Proof.Machine.execVmulhu o s
  | .vmad o => Sys2Proof.Machine.execVmad o s
  | .vmin o => Sys2Proof.Machine.execVmin o s
  | .vmax o => Sys2Proof.Machine.execVmax o s
  | .vminu o => Sys2Proof.Machine.execVminu o s
  | .vmaxu o => Sys2Proof.Machine.execVmaxu o s
  | .vabs o => Sys2Proof.Machine.execVabs o s
  | .vand o => Sys2Proof.Machine.execVand o s
  | .vor o => Sys2Proof.Machine.execVor o s
  | .vxor o => Sys2Proof.Machine.execVxor o s
  | .vandn o => Sys2Proof.Machine.execVandn o s
  | .vshl o => Sys2Proof.Machine.execVshl o s
  | .vshr o => Sys2Proof.Machine.execVshr o s
  | .vsar o => Sys2Proof.Machine.execVsar o s
  | .vbfx o => Sys2Proof.Machine.execVbfx o s
  | .vbfxu o => Sys2Proof.Machine.execVbfxu o s
  | .vbfi o => Sys2Proof.Machine.execVbfi o s
  | .vfshl o => Sys2Proof.Machine.execVfshl o s
  | .vfshr o => Sys2Proof.Machine.execVfshr o s
  | .vclz o => Sys2Proof.Machine.execVclz o s
  | .vpopc o => Sys2Proof.Machine.execVpopc o s
  | .vcmp o => Sys2Proof.Machine.execVcmp o s
  | .vcmpi o => Sys2Proof.Machine.execVcmpi o s
  | .vfcmp o => Sys2Proof.Machine.execVfcmp o s
  | .vsel o => Sys2Proof.Machine.execVsel o s
  | .vmovi o => Sys2Proof.Machine.execVmovi o s
  | .vaddsat o => Sys2Proof.Machine.execVaddsat o s
  | .vsubsat o => Sys2Proof.Machine.execVsubsat o s
  | .vdot4 o => Sys2Proof.Machine.execVdot4 o s
  | .vdot4s o => Sys2Proof.Machine.execVdot4s o s
  | .vdot2 o => Sys2Proof.Machine.execVdot2 o s
  | .vfadd o => Sys2Proof.Machine.execVfadd o s
  | .vfsub o => Sys2Proof.Machine.execVfsub o s
  | .vfmul o => Sys2Proof.Machine.execVfmul o s
  | .vfma o => Sys2Proof.Machine.execVfma o s
  | .vbfma o => Sys2Proof.Machine.execVbfma o s
  | .vfmin o => Sys2Proof.Machine.execVfmin o s
  | .vfmax o => Sys2Proof.Machine.execVfmax o s
  | .vfabs o => Sys2Proof.Machine.execVfabs o s
  | .vfneg o => Sys2Proof.Machine.execVfneg o s
  | .vfcvt o => Sys2Proof.Machine.execVfcvt o s
  | .vnrw o => Sys2Proof.Machine.execVnrw o s
  | .vwdn o => Sys2Proof.Machine.execVwdn o s
  | .vrcp o => Sys2Proof.Machine.execVrcp o s
  | .vrsq o => Sys2Proof.Machine.execVrsq o s
  | .vexp2 o => Sys2Proof.Machine.execVexp2 o s
  | .vlog2 o => Sys2Proof.Machine.execVlog2 o s
  | .vld o => Sys2Proof.Machine.execVld o s
  | .vst o => Sys2Proof.Machine.execVst o s
  | .vldg o => Sys2Proof.Machine.execVldg o s
  | .vsts o => Sys2Proof.Machine.execVsts o s
  | .vshuf o => Sys2Proof.Machine.execVshuf o s
  | .vred o => Sys2Proof.Machine.execVred o s
  | .vscan o => Sys2Proof.Machine.execVscan o s
  | .vcntp o => Sys2Proof.Machine.execVcntp o s
  | .vlane o => Sys2Proof.Machine.execVlane o s
  | .xmovvBay o => Sys2Proof.Machine.execXmovvBay o s
  | .xmovvAll o => Sys2Proof.Machine.execXmovvAll o s
  | .xmovvA o => Sys2Proof.Machine.execXmovvA o s
  | .xmovvA2 o => Sys2Proof.Machine.execXmovvA2 o s
  | .mma o => Sys2Proof.Machine.execMma o s
  | .mmaz o => Sys2Proof.Machine.execMmaz o s
  | .mmag o => Sys2Proof.Machine.execMmag o s
  | .midx o => Sys2Proof.Machine.execMidx o s
  | .mld o => Sys2Proof.Machine.execMld o s
  | .mst o => Sys2Proof.Machine.execMst o s
  | .mzero o => Sys2Proof.Machine.execMzero o s
  | .mtrn o => Sys2Proof.Machine.execMtrn o s
  | .mrowmax o => Sys2Proof.Machine.execMrowmax o s
  | .mrowsum o => Sys2Proof.Machine.execMrowsum o s
  | .mscale o => Sys2Proof.Machine.execMscale o s
  | .maddt o => Sys2Proof.Machine.execMaddt o s
  | .mwait o => Sys2Proof.Machine.execMwait o s
  | .mOpStart core => Sys2Proof.Machine.execMOpStart core s
  | .mOpComplete core => Sys2Proof.Machine.execMOpComplete core s
  | .dcopy o => Sys2Proof.Machine.execDcopy o s
  | .dcopy2 o => Sys2Proof.Machine.execDcopy2 o s
  | .dgath o => Sys2Proof.Machine.execDgath o s
  | .dfill o => Sys2Proof.Machine.execDfill o s
  | .dtbl o => Sys2Proof.Machine.execDtbl o s
  | .dtblld o => Sys2Proof.Machine.execDtblld o s
  | .dpref o => Sys2Proof.Machine.execDpref o s
  | .dflush o => Sys2Proof.Machine.execDflush o s
  | .shut o => Sys2Proof.Machine.execShut o s
  | .openp o => Sys2Proof.Machine.execOpenp o s
  | .engineCompletion team cmd => Sys2Proof.Machine.execEngineCompletion team cmd s
  | .enq o => Sys2Proof.Machine.execEnq o s
  | .enqAck strand => Sys2Proof.Machine.execEnqAck strand s
  | .enqResend strand => Sys2Proof.Machine.execEnqResend strand s
  | .deq o => Sys2Proof.Machine.execDeq o s
  | .deqNb o => Sys2Proof.Machine.execDeqNb o s
  | .qctlOpen o => Sys2Proof.Machine.execQctlOpen o s
  | .qctlClose o => Sys2Proof.Machine.execQctlClose o s
  | .qctlBackoff o => Sys2Proof.Machine.execQctlBackoff o s
  | .qctlDepth o => Sys2Proof.Machine.execQctlDepth o s
  | .tsub o => Sys2Proof.Machine.execTsub o s
  | .launch o => Sys2Proof.Machine.execLaunch o s
  | .jraise o => Sys2Proof.Machine.execJraise o s
  | .jwait o => Sys2Proof.Machine.execJwait o s
  | .jdone o => Sys2Proof.Machine.execJdone o s
  | .jflags o => Sys2Proof.Machine.execJflags o s
  | .rsend o => Sys2Proof.Machine.execRsend o s
  | .rrecv o => Sys2Proof.Machine.execRrecv o s
  | .pfxlook o => Sys2Proof.Machine.execPfxlook o s
  | .pfxins o => Sys2Proof.Machine.execPfxins o s
  | .trim o => Sys2Proof.Machine.execTrim o s
  | .pin o => Sys2Proof.Machine.execPin o s
  | .stopen o => Sys2Proof.Machine.execStopen o s
  | .stclose o => Sys2Proof.Machine.execStclose o s
  | .strung o => Sys2Proof.Machine.execStrung o s
  | .frameRsv o => Sys2Proof.Machine.execFrameRsv o s
  | .framePub o => Sys2Proof.Machine.execFramePub o s
  | .frameChk o => Sys2Proof.Machine.execFrameChk o s
  | .seedset o => Sys2Proof.Machine.execSeedset o s
  | .cbset o => Sys2Proof.Machine.execCbset o s
  | .xlinvRng o => Sys2Proof.Machine.execXlinvRng o s
  | .xlinvAsid o => Sys2Proof.Machine.execXlinvAsid o s
  | .xlinvAll o => Sys2Proof.Machine.execXlinvAll o s
  | .crset o => Sys2Proof.Machine.execCrset o s
  | .roleChangeDrainDone => Sys2Proof.Machine.execRoleChangeDrainDone s
  | .roleChangeFlushDone => Sys2Proof.Machine.execRoleChangeFlushDone s
  | .distributorSelection => Sys2Proof.Machine.execDistributorSelection s
  | .teamExit team => Sys2Proof.Machine.execTeamExit team s
  | .bankLoadComplete core bank => Sys2Proof.Machine.execBankLoadComplete core bank s
  | .bankDrainComplete core bank => Sys2Proof.Machine.execBankDrainComplete core bank s
  | .preemptionPoint core => Sys2Proof.Machine.execPreemptionPoint core s
  | .swapEnd core => Sys2Proof.Machine.execSwapEnd core s
  | .spillStep core => Sys2Proof.Machine.execSpillStep core s
  | .fillStep core => Sys2Proof.Machine.execFillStep core s
  | .streamRelease stream => Sys2Proof.Machine.execStreamRelease stream s
  | .deferredRelease stream => Sys2Proof.Machine.execDeferredRelease stream s
  | .ringStallTimeout stream ring => Sys2Proof.Machine.execRingStallTimeout stream ring s
  | .encoderEntry engine => Sys2Proof.Machine.execEncoderEntry engine s
  | .encoderBandRead stream => Sys2Proof.Machine.execEncoderBandRead stream s
  | .encoderRepeatFrame stream => Sys2Proof.Machine.execEncoderRepeatFrame stream s
  | .bitstreamRingSpace stream => Sys2Proof.Machine.execBitstreamRingSpace stream s
  | .clusterHalt course cluster => Sys2Proof.Machine.execClusterHalt course cluster s
  | .patternChange course cluster => Sys2Proof.Machine.execPatternChange course cluster s
  | .dwellEnd course cluster => Sys2Proof.Machine.execDwellEnd course cluster s
  | .fltqlostRead => Sys2Proof.Machine.execFltqlostRead s
  | .bar2errRead => Sys2Proof.Machine.execBar2errRead s
  | .mctlReset => Sys2Proof.Machine.execMctlReset s
  | .mctlJclr => Sys2Proof.Machine.execMctlJclr s
  | .revolutionTimeout port layer frame => Sys2Proof.Machine.execRevolutionTimeout port layer frame s
  | .powerOn => Sys2Proof.Machine.execPowerOn s
  | .hostHotReset => Sys2Proof.Machine.execHostHotReset s
  | .stepWatchdog => Sys2Proof.Machine.execStepWatchdog s
  | .powerLoss => Sys2Proof.Machine.execPowerLoss s
  | .roleChangeTestDone => Sys2Proof.Machine.execRoleChangeTestDone s
  | .dOperationComplete strand => Sys2Proof.Machine.execDOperationComplete strand s
  | .stallBundle core => Sys2Proof.Machine.execStallBundle core s
  | .pcieCompletionTimeout strand => Sys2Proof.Machine.execPcieCompletionTimeout strand s
  | .ringPairComplete port side ok data => Sys2Proof.Machine.execRingPairComplete port side ok data s
  | .controlPeriodEnd temps power => Sys2Proof.Machine.execControlPeriodEnd temps power s
  | .droopStretch course => Sys2Proof.Machine.execDroopStretch course s
  | .refreshOperation course => Sys2Proof.Machine.execRefreshOperation course s
  | .courseFailure course => Sys2Proof.Machine.execCourseFailure course s
  | .firmwareEccError addr => Sys2Proof.Machine.execFirmwareEccError addr s
  | .fltqptrHeadWrite value => Sys2Proof.Machine.execFltqptrHeadWrite value s
  | .fdispResume token strand => Sys2Proof.Machine.execFdispResume token strand s
  | .fdispSkiprep token strand => Sys2Proof.Machine.execFdispSkiprep token strand s
  | .fdispSkip token strand => Sys2Proof.Machine.execFdispSkip token strand s
  | .fdispTerm token strand => Sys2Proof.Machine.execFdispTerm token strand s
  | .fdispKill token strand => Sys2Proof.Machine.execFdispKill token strand s
  | .keystoneDisposition disp token strand => Sys2Proof.Machine.execKeystoneDisposition disp token strand s
  | .admlimWrite value => Sys2Proof.Machine.execAdmlimWrite value s
  | .stctlPoison stream ring pidx => Sys2Proof.Machine.execStctlPoison stream ring pidx s
  | .stctlIrq stream on => Sys2Proof.Machine.execStctlIrq stream on s
  | .queueSuspend queue on => Sys2Proof.Machine.execQueueSuspend queue on s
  | .queueRank queue rank => Sys2Proof.Machine.execQueueRank queue rank s
  | .fpush value => Sys2Proof.Machine.execFpush value s
  | .hmbxWrite desc value => Sys2Proof.Machine.execHmbxWrite desc value s
  | .hintrWrite value => Sys2Proof.Machine.execHintrWrite value s
  | .rpstatArm port => Sys2Proof.Machine.execRpstatArm port s
  | .mctlRload len => Sys2Proof.Machine.execMctlRload len s
  | .registerWrite offset size value level => Sys2Proof.Machine.execRegisterWrite offset size value level s
  | .bar2Read offset n => Sys2Proof.Machine.execBar2Read offset n s
  | .bar2Write offset bytes => Sys2Proof.Machine.execBar2Write offset bytes s
  | .bar2Atomicop offset n op value compare => Sys2Proof.Machine.execBar2Atomicop offset n op value compare s
  | .ringWindowWrite port fromNext offset value => Sys2Proof.Machine.execRingWindowWrite port fromNext offset value s
  | .ringLinkDown port => Sys2Proof.Machine.execRingLinkDown port s
  | .ideIntegrityFailure port stream => Sys2Proof.Machine.execIdeIntegrityFailure port stream s
  | .ideKm port stream key => Sys2Proof.Machine.execIdeKm port stream key s
  | .getVersion port => Sys2Proof.Machine.execGetVersion port s
  | .getCapabilities port => Sys2Proof.Machine.execGetCapabilities port s
  | .negotiateAlgorithms port => Sys2Proof.Machine.execNegotiateAlgorithms port s
  | .getDigests port => Sys2Proof.Machine.execGetDigests port s
  | .getCertificate port slot offset length => Sys2Proof.Machine.execGetCertificate port slot offset length s
  | .challenge port slot nonce => Sys2Proof.Machine.execChallenge port slot nonce s
  | .getMeasurements port index nonce => Sys2Proof.Machine.execGetMeasurements port index nonce s
  | .keyExchange port slot exchange => Sys2Proof.Machine.execKeyExchange port slot exchange s
  | .finish port mac => Sys2Proof.Machine.execFinish port mac s
  | .startStepEnd pass mask detail => Sys2Proof.Machine.execStartStepEnd pass mask detail s
  | .msixVectorUnmask vector => Sys2Proof.Machine.execMsixVectorUnmask vector s
  | .resizableBarWrite size => Sys2Proof.Machine.execResizableBarWrite size s

end Sys2Proof.Machine
end

