-- ==== Sys2Proof/Machine/Schedule.lean ====
section
/-! DEFINITION. The order in which one machine takes its turns: the events that the device itself makes, with the cycle each is due, the
strand that each core issues next (file 01 R16, R17), and blocked strands that are ready again. -/

namespace Sys2Proof.Machine

/-! ### Events of the device -/

def opt (c : Bool) (e : Nat × Instr) : List (Nat × Instr) := if c then [e] else []

/-- Events of a strand: results that arrive, the end of a sleep, its replay window (R306, R302, R117, R279). -/
def State.strandEvents (s : State) (k : Nat) (st : Strand) : List (Nat × Instr) :=
  (match st.nextPend (fun p => p.global && !p.pcie) with
   | some p => [(p.due, .globalAccessComplete k true 0)]
   | none => []) ++
  (match s.nextService k with
   | some p => [(p.due, .dOperationComplete k)]
   | none => []) ++
  (match st.run with
   | .blocked (.sleep w) => opt ((s.team (teamOf k)).status == .bound) (w, .sleepWake k)
   | _ => []) ++
  (match st.nextEntry false with
   | some e => [(e.notBefore, .enqAck k)]
   | none => []) ++
  (match st.nextEntry true with
   | some e => [(e.notBefore, .enqResend k)]
   | none => [])

/-- Events of a team: its engines' completions and its exit (R265, R175). -/
def State.teamEvents (s : State) (t : Nat) (T : Team) : List (Nat × Instr) :=
  (T.cmds.filter (fun c => !c.isRing && s.engineReady t c)).map (fun c => (c.due, .engineCompletion t { cmd := c.id, bad := none })) ++
    opt (s.canExit t) (s.cycle, .teamExit t)

/-- Events of a shadow bank. -/
def bankEvents (c b : Nat) (K : Core) : List (Nat × Instr) :=
  match K.bank b, K.swap with
  | .loading _, some w => [(w.loaded, .bankLoadComplete c b)]
  | .draining _ since, _ => [(since + drainCycles, .bankDrainComplete c b)]
  | _, _ => []

/-- Events of a core: its matrix engine, its banks, a swap, its spill unit. -/
def State.coreEvents (s : State) (c : Nat) (K : Core) : List (Nat × Instr) :=
  (match K.mrun, K.mq with
   | some r, _ => [(r.done, .mOpComplete c)]
   | none, o :: _ => opt (s.mReady o && (s.passFrom c (K.mStart s.cycle) 40).isSome) (K.mStart s.cycle, .mOpStart c)
   | none, [] => []) ++
  bankEvents c 0 K ++ bankEvents c 1 K ++
  (match K.swap with
   | some w =>
     opt (s.pointReady c) (s.pointAt c w, .preemptionPoint c) ++
       (match w.swapEnd with | some e => [(e, .swapEnd c)] | none => [])
   | none => []) ++
  (match K.work with
   | some (fill, _, i) => [(K.spillAt + stepCycles i, if fill then .fillStep c else .spillStep c)]
   | none => [])

/-- Events of a stream: releases, ring stalls, its encoder, whose accesses wait while the home slices move (file 13 R375). -/
def State.streamEvents (s : State) (n : Nat) (st : Stream) : List (Nat × Instr) :=
  if !st.live then [] else
  opt (!st.closed) (st.nextRelease, .streamRelease n) ++
  opt st.mayRelease (s.cycle, .deferredRelease n) ++
  (match st.frame.stallAt st.rtimeout with | some t => [(t, .ringStallTimeout n 0)] | none => []) ++
  (match st.bits.stallAt st.rtimeout with | some t => [(t, .ringStallTimeout n 1)] | none => []) ++
  (if s.holding then [] else
    opt st.bandReady (s.cycle, .encoderBandRead n) ++
    (match st.repeatAt with | some t => [(t, .encoderRepeatFrame n)] | none => []) ++
    opt (st.encWait.isSome && !s.bitsFull n) (s.cycle, .bitstreamRingSpace n))

/-- Events of a cluster: its pattern, the end of its dwell, its halt. -/
def State.clusterEvents (s : State) (k : Nat) (K : Cluster) : List (Nat × Instr) :=
  opt (K.stop && K.target != pattern 0 && !s.clusterM k && (List.range 4).all (fun i => (s.residents (4 * k + i)).isEmpty))
    (s.cycle, .clusterHalt (k / 8) (k % 8)) ++
  opt (K.target != K.pattern) (K.patternDue, .patternChange (k / 8) (k % 8)) ++
  (match K.dwellEnd with | some t => [(t, .dwellEnd (k / 8) (k % 8))] | none => [])

/-- The refresh operations of the courses in service (file 08 R313, R314), from the end of start-up on. -/
def State.refreshEvents (s : State) : List (Nat × Instr) :=
  if s.boot.ready then (List.range 6).map (fun c => ((s.course c).refreshDue, .refreshOperation c)) else []

/-- Events of a ring port: a revolution whose pair has waited too long (file 18 R462). -/
def State.ringEvents (s : State) (p : Nat) : List (Nat × Instr) :=
  (s.ringQueue p).map (fun r => (r.since + (s.port p).patience, .revolutionTimeout p (tagLayer r.tag) (tagFrame r.tag)))

/-- Events of the plinth: the distributor, a role change, the encoders' queues. -/
def State.plinthEvents (s : State) : List (Nat × Instr) :=
  (let r := s.reserve s.mayLaunches
   opt (s.mayLaunches.any (fun l => r.bindable l || r.mayPreempt l) || r.cores != s.cores)) (if s.lastSel = 0 then s.cycle else s.lastSel + 4, .distributorSelection) ++
  opt s.starting (s.watchdogAt, .stepWatchdog) ++
  opt (s.rcState = 1) (s.cycle, .roleChangeTestDone) ++
  opt (s.rcState = 2 && s.drained) (s.cycle, .roleChangeDrainDone) ++
  opt (s.rcState = 3) (s.cycle, .roleChangeFlushDone) ++
  ((List.range 16).map (fun e => opt (!(s.queue (4080 + e)).entries.isEmpty) (s.cycle, .encoderEntry e))).flatten

/-- The strands by ascending core, supervisor cores last: the order of requests that arrive on one cycle (file 14 R395). -/
def State.strandsByCore (s : State) : List (Nat × Strand) := sortBy (fun p => s.coreOf (teamOf p.1)) s.strands

/-- Every event of the device itself that may come, with the cycle it is due; a selection sees what the other events of its cycle have done
(file 12 R363). -/
def State.dueEvents (s : State) : List (Nat × Instr) :=
  (if s.boot.fatal then [] else
    ((List.range 3).map s.ringEvents).flatten ++
    (s.cores.map (fun p => s.coreEvents p.1 p.2)).flatten ++
    (s.teams.map (fun p => s.teamEvents p.1 p.2)).flatten ++
    ((s.strandsByCore).map (fun p => s.strandEvents p.1 p.2)).flatten ++
    (s.streams.map (fun p => s.streamEvents p.1 p.2)).flatten ++
    s.plinthEvents) ++
  (s.clusters.map (fun p => s.clusterEvents p.1 p.2)).flatten ++
  s.refreshEvents

/-- The first event of a list to come, at its due cycle or now. -/
def State.firstEvent (s : State) (l : List (Nat × Instr)) : Option (Nat × Instr) :=
  leastBy (fun e => e.1) (l.map (fun e => (Nat.max s.cycle e.1, e.2)))

/-- The next turn that the device itself makes: the first event to come, or the end of the control period (file 16 R425). -/
def State.nextEvent (s : State) : Nat × Turn :=
  match s.firstEvent s.dueEvents with
  | some (u, i) => if u ≤ s.periodEnd then (u, .event i) else (Nat.max s.cycle s.periodEnd, .period)
  | none => (Nat.max s.cycle s.periodEnd, .period)

/-! ### Blocked strands (R16, R110, R279, R280, R287) -/

/-- What a blocked bundle waits for has come. -/
def State.waitOver (s : State) (k : Nat) : Wait → Bool
  | .pane i => (s.team (teamOf k)).shutter i == .t || !(s.team (teamOf k)).awaits i
  | .enq => (s.strand k).window.length < 16
  | .deq q => !(s.queue q).entries.isEmpty || !(s.queue q).isOpen
  | .jcb va =>
    match s.walk (s.team (teamOf k)).asid va with
    | .leaf pte _ _ large => (s.readJcb (ptePA pte + (if large then va % 67108864 else va % 65536))).complete
    | _ => true
  | .stall => true
  | .place _ => true
  | .until t => decide (t ≤ s.cycle)
  | .sleep _ => false
  | .mbx _ => false
  | .bar _ => false

/-- Make ready the strands whose wait is over; their bundles issue again. -/
def State.wake (s : State) : State :=
  s.forEach ((s.strands.filter (fun p => match p.2.run with | .blocked w => s.waitOver p.1 w | _ => false)).map (·.1)) (fun s k =>
    s.updStrand k (fun st => { st with run := .ready }))

/-! ### The strand that issues next (R16) -/

/-- A core whose strand cannot issue switches to the next ready strand, in 4 cycles from now (R16); a core that no strand holds takes one
without a switch. -/
def State.switchCore (s : State) (core : Nat) : State :=
  let K := s.core core
  let next := fun (after : Nat) => (s.slotOrder core after).find? s.canIssue
  match K.slot with
  | none =>
    match next 3 with
    | some j => s.takeCore core j
    | none => s
  | some k =>
    if s.canIssue k then s else
    match next (s.strand k).slot with
    | some j => s.takeCore core j
    | none => s

/-- The cores on which a team is bound, in ascending order: supervisor cores come last (file 14 R395). -/
def State.busyCores (s : State) : List Nat :=
  sortBy id ((s.teams.filter (fun p => p.2.status == .bound)).map (fun p => s.coreOf p.1)).eraseDups

/-- Every core makes the switch that is due. -/
def State.switchCores (s : State) : State := s.forEach s.busyCores State.switchCore

/-- The strand a core issues from, and the cycle on which it can issue. -/
def State.nextOn (s : State) (core : Nat) : Option (Nat × Nat) :=
  let K := s.core core
  match K.slot with
  | some k =>
    if s.canIssue k then
      (s.issueAt core k).map (fun t => (t, k))
    else none
  | none => none

/-- The first strand to issue over all cores: the cycle and the strand. -/
def State.nextStrand (s : State) : Option (Nat × Nat) :=
  leastBy (fun x => x.1) (s.busyCores.filterMap s.nextOn)

/-- What happens next where the agenda says nothing: a strand issues, or an event comes. A strand that issues on the cycle of an event issues
before it (file 08 R309; file 15 R412). -/
def State.nextTurn (s : State) : Turn :=
  match s.nextStrand, s.nextEvent with
  | some (t, k), (u, e) => if t ≤ u then .issue k else e
  | none, (_, e) => e

/-! ### A turn -/

/-- A strand issues one repetition of a bundle, if it holds its core (R16, R17). -/
def issueTurn (run : Instr → State → Result) (k : Nat) (s : State) : Result :=
  let s := s.switchCore (s.coreOf (teamOf k))
  if !s.canIssue k || (s.core (s.coreOf (teamOf k))).slot != some k then .next s else
  match run .bundleRepetition { s with cur := k } with
  | .next s => runSlots run s
  | o => o

/-- Take a turn: an event of the table, the end of a control period, whose samples are the sensors', or the issue of a strand. The issue of a bundle takes place with its slots, and a slot
instruction is no event. -/
def takeTurn (run : Instr → State → Result) (t : Turn) (s : State) : Result :=
  match t with
  | .issue k => issueTurn run k s
  | .period => execControlPeriodEnd ((List.range 48).map (Config.sensor s.period)) (Config.power s.period) s
  | .event i => if i == .bundleRepetition then issueTurn run s.cur s else if (slotOf i).isSome then .next s else run i s

/-- One step over the meanings `run`: the head of the agenda, or what comes next. -/
def stepWith (run : Instr → State → Result) (s : State) : Result :=
  match s.agenda with
  | t :: rest => takeTurn run t { s with agenda := rest }
  | [] =>
    if !s.boot.powered then .fault .noPower else
    let s := s.wake.startUnits.switchCores
    takeTurn run s.nextTurn s

end Sys2Proof.Machine
end

