-- ==== Sys2Proof/Machine/Place.lean ====
section
/-! DEFINITION. Placing one instruction where the machine fetches next. A program comes to run by a launch that the distributor has
selected and bound (file 11 R346, R347); this stands for that load: page tables for one page of code (file 14 R380-R382), a launch
of one team with one strand, bound on core 0 of course 0, whose next bundle is the instruction. -/

namespace Sys2Proof.Machine

/-- Address space, virtual address and frame of the placed code; the frame of its page tables. -/
def placeAsid : Nat := 1
def placeVa : Nat := 65536
def placeCode : Nat := 131072
def placeTables : Nat := 65536

/-- Page tables that map the one page of code, readable, writable and executable: four tables of 16 KiB, and the root entry. -/
def State.placeMap (s : State) : State :=
  let s := s.refill placeTables 65536 (leBytes 8 (placeTables + 16384 + 1))
  let s := s.poke (placeTables + 16384) (leBytes 8 (placeTables + 32768 + 1)) 3
  let s := s.poke (placeTables + 32768) (leBytes 8 (placeTables + 49152 + 1)) 3
  let s := s.poke (placeTables + 49152 + 8) (leBytes 8 (placeCode + 31)) 3
  let s := s.poke (s.asidBase + 8 * placeAsid) (leBytes 8 (placeTables + 1)) 3
  { s with log := [], tlb := s.tlb.filter (fun e => e.asid != placeAsid), walks := s.walks.filter (fun e => e.asid != placeAsid) }

/-- The header of the placed launch: one core, one strand, no quotas and no handler (file 01 R19). -/
def placeHdr : LaunchHdr := { entry := placeVa, asid := placeAsid, strands := 1, cores := 1 }

/-- Bind the placed launch on core 0. -/
def State.placeTeam (s : State) : State :=
  let s := { s with roleMap := s.roleMap % 64 ||| 1, strands := [], teams := [], cores := [], launches := [], nextLid := 2 }
  let s := (s.updLaunch 1 (fun _ => { live := true, hdrVa := placeVa, subAsid := placeAsid, isReady := true })).bindTeam 1 placeHdr 0 0 .bound
  s.updCore 0 (fun K => { K with slot := some 0 })

/-- A bundle of words is the next that the machine issues. -/
def State.placeBundle (s : State) (ws : List Nat) : State :=
  let s := s.placeMap.refill placeCode 65536 ((ws.map (leBytes 4)).flatten)
  { s.placeTeam with agenda := [.issue 0] }

/-- The bundle that an opcode-table word stands for; a word that no slot takes stands in the first slot of its width. -/
def tableBundle (nbits w : Nat) : List Nat :=
  oneSlotBundle (((tableSlot nbits w).map (·.1)).getD (if nbits ≤ 32 then 2 else 10)) (tableWords nbits w)

end Sys2Proof.Machine
end

