-- ==== Sys2Proof/Machine/Step.lean ====
section
/-! DEFINITION. One step of the machine, and an instruction placed where the next step fetches. -/

namespace Sys2Proof.Machine

/-- One step: a turn of the agenda, or else the strand or event that comes next. -/
def step (s : State) : Host.Outcome State Fault Refusal := stepWith exec s

/-- The instruction of an opcode-table word, placed as the next bundle that issues. -/
def State.withFetchWord (s : State) (nbits w : Nat) : State := s.placeBundle (tableBundle nbits w)

end Sys2Proof.Machine
end

