-- ==== Sys2Proof/Safety.lean ====
section
/-! DEFINITION. What counts as a safe run: a step that goes on, and the canonical form of memory; and the words the statements use for
what an instruction changes and what it leaves as it was. -/

namespace Sys2Proof

open Sys2Proof.Machine

/-- The outcome is a next state. -/
def Completes (r : Host.Outcome State Fault Refusal) : Prop := ∃ t, r = .next t

/-- The outcome is neither a fault nor a refusal, as a Bool. -/
def isNext (r : Host.Outcome State Fault Refusal) : Bool :=
  match r with
  | .next _ => true
  | .fault _ => false
  | .refused _ => false

/-- Device memory is in its canonical form: addresses rising, no byte listed that reads as an unlisted one. -/
def MemInv (s : State) : Prop := Memory.wf s.mem = true

/-- The instruction answers a next state, of which `P` holds. -/
def Does (i : Instr) (s : State) (P : State → Prop) : Prop := ∃ t, Sys2Proof.Machine.exec i s = .next t ∧ P t

/-! ### The registers of the strand that issues, as they stand -/

def aNow (s : State) (n : Nat) : Word := NMap.get 0 s.st.a n
def bNow (s : State) (n : Nat) : VA := NMap.get 0 s.st.b n
def laneNow (s : State) (bay n l : Nat) : Lane := NMap.get 0 s.st.v (vKey bay n l)
def tagNow (s : State) (bay n : Nat) : Nat := NMap.get 0 s.st.vtag (vTagKey bay n)

/-! ### What changes -/

/-- Nothing differs but the entries of the tables that the names give. -/
def OnlyStrands (s t : State) : Prop := { t with strands := s.strands } = s
def OnlyTeams (s t : State) : Prop := { t with teams := s.teams } = s
def OnlyCores (s t : State) : Prop := { t with cores := s.cores } = s

/-- Nothing differs but the strand that issues. -/
def OnlyStrand (s t : State) : Prop := OnlyStrands s t ∧ ∀ k, k ≠ s.cur → t.strand k = s.strand k
/-- Nothing differs but the team of the strand that issues. -/
def OnlyTeam (s t : State) : Prop := OnlyTeams s t ∧ ∀ k, k ≠ teamOf s.cur → t.team k = s.team k

/-- The strand that issues is `st`, and nothing else differs. -/
def StrandIs (s t : State) (st : Strand) : Prop := OnlyStrand s t ∧ t.st = st
/-- The team of the strand that issues is `T`, and nothing else differs. -/
def TeamIs (s t : State) (T : Team) : Prop := OnlyTeam s t ∧ t.tm = T

/-- Register a`d` holds `v` and the flags `f` are raised; every other register, every flag, the program counter, memory and all
else is as it was. -/
def WritesA (s t : State) (d : Nat) (v : Word) (f : Flags) : Prop :=
  OnlyStrand s t ∧ { t.st with a := s.st.a, flags := s.st.flags } = s.st ∧ t.st.flags = s.st.flags ||| f ∧
    ∀ n, aNow t n = if n = d then v else aNow s n

/-- The S bit and the lane bits of predicates are as `sb` and `lb` say, p0 always 1; flags `f` are raised; all else is as it was. -/
def WritesP (s t : State) (f : Flags) (sb : Nat → Bool) (lb : Nat → BitVec 128) : Prop :=
  OnlyStrand s t ∧ { t.st with ps := s.st.ps, pl := s.st.pl, flags := s.st.flags } = s.st ∧ t.st.flags = s.st.flags ||| f ∧
    ∀ n, t.st.pS n = (n == 0 || sb n) ∧ t.st.pL n = if n = 0 then BitVec.allOnes 128 else lb n

/-- A condition and its complement go to all bits of two predicates. -/
def WritesPair (s t : State) (pt pf : Nat) (c : Bool) (f : Flags) : Prop :=
  WritesP s t f (fun n => if n = pf then !c else if n = pt then c else s.st.pS n)
    (fun n => if n = pf then (if c then 0 else BitVec.allOnes 128) else if n = pt then (if c then BitVec.allOnes 128 else 0) else s.st.pL n)

/-- The active lanes of register v`d` of a bay hold `val`, its tag is `tag` if a lane is active, the flags `f` are raised; all else
is as it was. -/
def WritesV (s t : State) (bay d tag : Nat) (act : Nat → Bool) (val : Nat → Lane) (f : Flags) : Prop :=
  OnlyStrand s t ∧ { t.st with v := s.st.v, vtag := s.st.vtag, flags := s.st.flags } = s.st ∧ t.st.flags = s.st.flags ||| f ∧
    (∀ b n l, n < 64 → l < 16 → laneNow t b n l = if b = bay ∧ n = d ∧ act l = true then val l else laneNow s b n l) ∧
    ∀ b n, n < 64 → tagNow t b n = if b = bay ∧ n = d ∧ (List.range 16).any act = true then tag else tagNow s b n

/-- Every byte of device memory reads as before. -/
def SameMemory (s t : State) : Prop := ∀ a, Memory.read t.mem a = Memory.read s.mem a

/-! ### Words of the rules -/

/-- The conditions of R184 by number, on signed or unsigned numbers; R216 has the first six, in the order eq, ne, lt, le, ltu, leu. -/
def integerCondition {w : Nat} (cc : Nat) (x y : BitVec w) : Prop :=
  (cc = 0 ∧ x = y) ∨ (cc = 1 ∧ x ≠ y) ∨ (cc = 2 ∧ x.toInt < y.toInt) ∨ (cc = 3 ∧ x.toInt ≤ y.toInt) ∨ (cc = 4 ∧ x.toNat < y.toNat) ∨
  (cc = 5 ∧ x.toNat ≤ y.toNat) ∨ (cc = 6 ∧ x.toInt > y.toInt) ∨ (cc = 7 ∧ x.toInt ≥ y.toInt) ∨ (cc = 8 ∧ x.toNat > y.toNat) ∨
  (cc = 9 ∧ x.toNat ≥ y.toNat) ∨ (cc = 10 ∧ x &&& y ≠ 0)

/-- The flags raised are `e` where a condition holds, and none where it does not. -/
def RaisedIf (f e : Flags) (c : Prop) : Prop := (c ∧ f = e) ∨ (¬ c ∧ f = 0)

/-- The number that `n` bytes hold, the lowest first (file 00 R6). -/
def littleEndian (f : Nat → Byte) (n : Nat) : Nat := ((List.range n).map (fun i => (f i).toNat * 256 ^ i)).sum

/-- The value that a load of `n` bytes under B gives its register: signed where B is even (file 05 R187, R188). -/
def loadedValue (b n v : Nat) : Nat :=
  (if b % 2 = 0 then (BitVec.ofNat (8 * n) v).signExtend 64 else BitVec.ofNat 64 (v % 2 ^ (8 * n))).toNat

/-- The number that a finite value is; 0 for the others. -/
def ratOf : FVal → Rat
  | .num s n d => (if s then -1 else 1) * ((n : Rat) / (d : Rat))
  | _ => 0

/-- The magnitude of the finite code `q`, without its sign, in units of the smallest subnormal of a format with `mb` fraction bits (R48, R52). -/
def gridOf (mb q : Nat) : Nat := if q < 2 ^ mb then q else (2 ^ mb + q % 2 ^ mb) * 2 ^ (q / 2 ^ mb - 1)

/-- `q` is the nearest to `x` of the codes up to `top`, whose magnitudes are `gridOf mb` in units of 2^-k; of two the even one (R49). -/
def NearestCode (mb k top : Nat) (x : Rat) (q : Nat) : Prop :=
  q ≤ top ∧ ∀ p, p ≤ top → (x * 2 ^ k - gridOf mb q) ^ 2 ≤ (x * 2 ^ k - gridOf mb p) ^ 2 ∧
    ((x * 2 ^ k - gridOf mb q) ^ 2 = (x * 2 ^ k - gridOf mb p) ^ 2 → p ≠ q → q % 2 = 0)

/-- `m` is the largest of the magnitudes of the finite values of a list, 0 where there is none. -/
def LargestMagnitude (l : List FVal) (m : Rat) : Prop :=
  (∀ v ∈ l, v.finite = true → ratOf v ≤ m ∧ -ratOf v ≤ m) ∧ (m = 0 ∨ ∃ v ∈ l, v.finite = true ∧ (ratOf v = m ∨ -ratOf v = m))

/-- Byte `a` of a team's X buffer. -/
def xByte (T : Team) (a : Nat) : Byte := NMap.get 0 T.pane (byteKey 2 a)

/-- A thread instruction may access X pane `p`: it lies in the quota, its shutter is T, no earlier M operation is still to write it (or, for a
write, to read it), and it is in its place (R110, R189, R233, R89, R418). -/
def PaneFree (s : State) (p : Nat) (write : Bool) : Prop :=
  p < s.rt.xp ∧ s.rt.shutter (1056 + p) = .t ∧ s.mEarlier (1056 + p) write = false ∧ s.rt.absent (1056 + p) = false

/-- An instruction's access to X at the addresses `as`, of which those of `ms` must be multiples of `n`, is checked (R189, R233; the order is that
of log 79): a pane outside the quota takes trap 0x0C, with TINFO the buffer and the pane; a pane whose shutter is not T, and that no incomplete
command but the ring engine's names, trap 0x06, or the fault 0x43 that a failed ring pair left (R110, R289); an address that is not aligned trap 0x0A; else the
access waits while a pane is not free. Of several of one kind the first is taken. -/
def XChecked (i : Instr) (s : State) (as ms : List Nat) (n : Nat) (write : Bool) : Prop :=
  let out := fun a => 4194304 ≤ a ∨ s.rt.xp ≤ a / 4096
  let shut := fun a => s.rt.shutter (1056 + a / 4096) ≠ .t ∧ s.rt.awaits (1056 + a / 4096) = false
  (∀ pre a post, as = pre ++ a :: post → out a → (∀ x ∈ pre, ¬ out x) →
    Does i s (fun t => t = s.raise { prio := 61, code := 0x0C, tinfo := BitVec.ofNat 64 (4096 + a / 4096 % 4096) })) ∧
  ((∀ a ∈ as, ¬ out a) →
    (∀ pre a post, as = pre ++ a :: post → shut a → (∀ x ∈ pre, ¬ shut x) →
      Does i s (fun t => t = s.raise (match s.rt.shutter (1056 + a / 4096) with
        | .ringFailed p q => { prio := 70, code := 0x43, tinfo := BitVec.ofNat 64 (q % 2 ^ 32 * 2 ^ 32 + p) }
        | _ => { prio := 70, code := 0x06, tinfo := BitVec.ofNat 64 (a / 4096) }))) ∧
    ((∀ a ∈ as, ¬ shut a) →
      (∀ pre a post, ms = pre ++ a :: post → a % n ≠ 0 → (∀ x ∈ pre, x % n = 0) →
        Does i s (fun t => t = s.raise { prio := 80, code := 0x0A, tinfo := BitVec.ofNat 64 a })) ∧
      ((∀ a ∈ ms, a % n = 0) → (∃ a ∈ as, ¬ PaneFree s (a / 4096) write) → Does i s (fun t => ∃ w, t = s.block w))))

/-- An engine command of the issuing strand has entered its team's list: its instruction and operands, its start, the shutters of its panes, and
its promise, in register a`r` where one is given; nothing else of the team, no other register and no byte of memory has changed. -/
def Enqueued (s t : State) (i : Instr) (src dst n : Nat) (promise : Option Nat) : Prop :=
  t.mem = s.mem ∧ { t.st with a := s.st.a } = s.st ∧ { t.tm with cmds := s.tm.cmds, shut := s.tm.shut } = s.tm ∧
    ∃ c, t.tm.cmds = s.tm.cmds ++ [c] ∧ c.op = i ∧ c.strand = s.cur ∧ c.issue = s.cycle ∧ c.src = src ∧ c.dst = dst ∧ c.n = n ∧
      s.cycle + 16 ≤ c.start ∧ (∀ d ∈ s.tm.cmds, d.conflicts c = true → d.due ≤ c.start) ∧
      (∀ d ∈ s.coreCmds (s.coreOf (teamOf s.cur)), d.2.sameEngine c = true → d.2.due ≤ c.start) ∧
      match promise with
      | some r => ∃ p, c.promise = some p ∧ s.cycle + 16 ≤ p ∧ (∀ d ∈ s.tm.cmds, d.conflicts c = true → d.due ≤ p) ∧ ∀ k, aNow t k = if k = r then BitVec.ofNat 64 p else aNow s k
      | none => c.promise = none ∧ t.st.a = s.st.a

/-- The answer of a plinth service, `v`, is outstanding for the issuing strand, to come 40 cycles later or more; its A registers are as they
were (R302). -/
def Answers (s t : State) (dest : PendDest) (v : Nat) (ok : Bool) : Prop :=
  t.st.a = s.st.a ∧ ∃ p, t.st.pend = s.st.pend ++ [p] ∧ p.global = false ∧ p.dest = dest ∧ p.value = v ∧ p.ok = ok ∧ p.done = true ∧
    s.cycle + 40 ≤ p.due

/-- A request of the issuing strand waits in its context for the publication of its stores at a scope, `tail` cycles less than the figure of R307
counts; nothing else has changed (R102, R414). -/
def Requested (s t : State) (scope tail : Nat) (dest : PendDest) (r : Request) : Prop :=
  { t with strands := s.strands, freeN := s.freeN } = s ∧ (∀ k, k ≠ s.cur → t.strand k = s.strand k) ∧
    ∃ p, t.st = { s.st with pend := s.st.pend ++ [p] } ∧ p.global = false ∧ p.dest = dest ∧ p.done = false ∧ p.req = some r ∧
      p.scope = scope ∧ p.stores = s.st.toPublish scope ∧ p.pc = s.rs.pc ∧ p.rep = s.rs.rep ∧
      p.due = max (max s.cycle s.st.devBy + (if scope = 0 then 6 else if scope = 1 then 24 + s.st.sectors 1 else 64 + s.st.sectors scope) - tail)
        s.st.reqsDue

/-- Request `p` of strand `k`, with no store to publish, is the next to leave a core; `v` is the machine then (R102). -/
def Presents (s v : State) (k : Nat) (p : Pending) : Prop :=
  s.nextService k = some p ∧ p.stores = [] ∧
    v = ({ s with cycle := max s.cycle p.due, cur := k, iss := {} } : State).setSt (fun st => { st with pend := st.pend.erase p })

/-! ### Engines at work (files 03 and 07) -/

/-- A command of a team as it is performed: on the cycle that it is due, or later, with the panes of its team as they stand; `bad`: the address of
an uncorrectable data error. -/
def runOf (s : State) (t : Nat) (c : Cmd) (bad : Option Nat) : EngRun :=
  { s := ({ s with cycle := Nat.max s.cycle c.due } : State).settleTlb c.asid, team := t, asid := c.asid, pos := c.pos, T := s.team t, bad := bad }

/-- A command of team `t` has ended as its run `r` leaves it (R111, R265): its writes are published, the panes, margins, descriptors, tiles and
tables are those of the run, its flags are merged, it has left the list, the shutters that it closed reopen where no other command names
the pane, and an error is posted to the JCB of the launch. -/
def Ended (u : State) (t : Nat) (c : Cmd) (r : EngRun) : Prop :=
  ∃ v, (∀ e, r.err = some e → u = v.jcbError (v.team t).launch e.1 e.2.1 e.2.2) ∧ (r.err = none → u = v) ∧
    v.mem = (r.glob ++ r.dev.flatten).foldl (fun m p => Memory.write m p.1 p.2) r.s.mem ∧ v.pcieOut = r.s.pcieOut ++ r.out ∧
    (v.team t).pane = r.T.pane ∧ (v.team t).margin = r.T.margin ∧ (v.team t).desc = r.T.desc ∧ (v.team t).tile = r.T.tile ∧
    (v.team t).tvalid = r.T.tvalid ∧ (v.team t).tbl = r.T.tbl ∧ (v.team t).pdisc = r.T.pdisc ∧
    (v.strand c.strand).flags = (r.s.strand c.strand).flags ||| r.flags ∧ (∀ d ∈ (v.team t).cmds, d.id ≠ c.id) ∧
    ((r.s.team t).cmds.find? (fun d => d.id == c.id) = some c → ∀ k ∈ c.items, 32 ≤ k → (v.team t).shutter k =
      if r.T.shutter k = .cmd ∧ ∀ d ∈ (r.s.team t).cmds, d.id ≠ c.id → k ∉ d.items then .t else r.T.shutter k)

/-- A run of a command stops with an error, and writes nothing. -/
def Stops (r q : EngRun) (code detail addr : Nat) : Prop :=
  q.err = some (code, detail, addr) ∧ q.T = r.T ∧ q.glob = r.glob ∧ q.dev = r.dev ∧ q.out = r.out ∧ q.flags = r.flags

/-- A copy of record `r` stands in the fault queue, with the cycle and the next sequence number: in the queue where it has room and none waits,
with TAIL one further; else among the records that wait (R403). -/
def Copied (s t : State) (r : Record) : Prop :=
  t.fltSeq = s.fltSeq + 1 ∧
    (s.fltHold = [] ∧ s.fltFull = false → t.fltTail = (s.fltTail + 1) % 2 ^ 32 ∧ t.fltHold = s.fltHold ∧ ∀ i, i < 64 →
      Memory.read t.mem (s.fltBase + 64 * (s.fltTail % s.fltSize) + i) =
        ((({ r with seq := s.fltSeq + 1, cycle := s.cycle } : Record).dwords.map (leBytes 8)).flatten).getD i 0) ∧
    (¬ (s.fltHold = [] ∧ s.fltFull = false) → t.fltHold = s.fltHold ++ [{ r with seq := s.fltSeq + 1, cycle := s.cycle }])

/-! ### Fetch and issue (files 04 and 16) -/

/-- The strand that issues finds the bundle header `w` at its pc on cycle `u`, padding passed over, through the view `rs`; `s'` is the machine then
(R119, R121, R159, R163). -/
def FetchesHead (s : State) (u : Nat) (rs : List Renewal) (w : Nat) (s' : State) : Prop :=
  ∃ s1, (s.takeCore (s.coreOf (teamOf s.cur)) s.cur).issueAt (s.coreOf (teamOf s.cur)) s.cur = some u ∧
    ((s.takeCore (s.coreOf (teamOf s.cur)) s.cur).beforeIssue u).fetchView = (s1, rs) ∧
    (s1.passPadding rs 64).fetchWord (s1.passPadding rs 64).cur (s1.passPadding rs 64).st.pc.toNat rs = (s', .ok w) ∧ w ≠ paddingWord

/-- The words of the bundle at the pc of the strand that issues, fetched on cycle `u`, are `ws`; `s'` is the machine then (R122, R144). -/
def Fetches (s : State) (u : Nat) (ws : List Nat) (s' : State) : Prop :=
  ∃ s1 rs w, FetchesHead s u rs w s1 ∧ (getHeader w).kind = 0 ∧ s1.st.rep ≤ (getHeader w).rep ∧
    s1.fetchWords s1.cur s1.st.pc.toNat rs (1 + (getHeader w).body) = (s', .ok ws)

/-- Bundle `b` may issue on cycle `u` (R133 to R136, R433): its registers are ready, no refresh and no budget holds it back. `t` is the machine
then, `slots` what issues, `dep` the dependence of the group that it begins. -/
def MayIssue (s t : State) (core u : Nat) (b : Bundle) (slots : List IssueSlot) (dep : Option Nat) : Prop :=
  ((s.st.grpPos ≠ 0 ∧ s.st.grpChecked = true ∧ (b.head.rep = 0 ∨ s.st.rep ≠ 0) ∧ t = s ∧ dep = none) ∨
    ((s.st.grpPos = 0 ∨ s.st.grpChecked = false ∨ b.head.rep ≠ 0 ∧ s.st.rep = 0) ∧ dep = s.groupDependence s.cur s.st.pc.toNat b ∧
      t = s.setSt (fun st => { st with grpPos := 0, grpStart := st.pc, grpChecked := true }))) ∧
  slots = t.issueSlots b s.st.rep ∧
  s.st.readyAt ((slots.map (fun x => readsOf s.st x.instr ++ writesOf s.st x.instr)).flatten ++
    (slots.filter (fun x => x.addrs.isSome)).map (fun x => .d (strideReg x.slot))) u = some u ∧
  t.refreshWait core u slots = u ∧ (s.st.bnd = none → t.overBudget core u b.head.energy = false)

/-! ### Guards (file 04 R128) -/

/-- The guard of a C, A, M or D slot instruction that carries one. -/
def slotGuard : Instr → Option Nat
  | .pbr o => some o.g
  | .pbrx o | .br o | .brl o | .sleep o => some o.g
  | .loop o | .loopi o | .loopm o => some o.g
  | .lexit o | .waitp o | .bar o | .phase o | .trap o | .tret o | .sret o | .exit o | .yield o => some o.g
  | .add o | .sub o | .mul o | .mulh o | .mulhu o | .div o | .divu o | .rem o | .remu o | .min o | .max o | .minu o | .maxu o | .abs o
  | .and o | .or o | .xor o | .andn o | .orn o | .shl o | .shr o | .sar o | .rotl o | .shli o | .shri o | .sari o | .clz o | .ctz o
  | .popc o | .brev o | .bfx o | .bfxu o | .bfi o | .fshl o | .fshr o | .csrr o | .csrw o | .mbxr o | .mbxw o | .cyc o | .xmovaB o
  | .xmovaV o | .xmovaPair o | .wget o | .wrange o | .fadd o | .fsub o | .fmul o | .ffma o | .fcvt o => some o.g
  | .movi o => some o.g
  | .movl o | .addi o | .cmp o | .cmpi o | .sel o | .fcmp o | .ld o | .st o | .ldx o | .stx o | .atom o | .cas o => some o.g
  | .mma o | .mmaz o | .mmag o => some o.g
  | .midx o => some o.g
  | .mld o | .mst o => some o.g
  | .mzero o | .mtrn o | .mrowmax o | .mrowsum o | .mscale o | .maddt o => some o.g
  | .mwait o => some o.g
  | .dcopy o | .dcopy2 o | .dgath o | .dfill o | .dtbl o | .shut o | .openp o | .rsend o | .rrecv o => some o.g
  | .dtblld o | .dpref o | .dflush o | .enq o | .deq o | .deqNb o | .qctlOpen o | .qctlClose o | .qctlBackoff o | .qctlDepth o
  | .tsub o | .launch o | .jraise o | .jwait o | .jdone o | .jflags o | .pfxlook o | .pfxins o | .trim o | .pin o | .stopen o
  | .stclose o | .strung o | .frameRsv o | .framePub o | .frameChk o | .seedset o | .cbset o | .xlinvRng o | .xlinvAsid o
  | .xlinvAll o | .crset o => some o.g
  | _ => none

end Sys2Proof
end

