-- ==== Sys2Proof/Certificates/Slice0/Obligations.lean ====
section
/-! DEFINITION. The statements for the provers. -/

open Sys2Proof Sys2Proof.Machine

/-- Words written out from the encodings of R125, R126, R139 to R143, R242, R243 and R300 decode to the instructions they stand for. -/
def Obligations.WordsDecode : Prop :=
  decodeSlot 1 [0x00004105] = .ok (.add { g := 0, d := 4, a := 4, b := 5 }) ∧
  decodeSlot 0 [0x180C0002] = .ok (.trap { g := 3, imm := 2 }) ∧
  decodeSlot 0 [0x22000000] = .error (.unassignedOpcode 0x11) ∧
  decodeSlot 4 [0x73909FFE] = .ok (.vmovi { bay := 2, g := 100, d := 9, imm := 4094 }) ∧
  decodeSlot 10 [0x010C0000, 0x00003041] = .ok (.mma { g := 0, td := 3, wp := 32, xp := 0x404, kp := 3, int := 0 }) ∧
  decodeSlot 10 [0xC4010000, 0x0904300A] =
    .ok (.mst { g := 2, t := 3, xp := 5, fmt := 6, sgeo := 1, tag := 1, cb := 0, chalf := 0, int := 0 }) ∧
  decodeSlot 10 [0x00000000, 0x03008680] = .ok (.midx { g := 0, bay := 2, va := 6, half := 1 }) ∧
  decodeSlot 11 [0x0408E000, 0x00005014] =
    .ok (.dcopy { g := 0, ssp := 0, dsp := 2, src := 0x405, dst := 8, np := 1, pr := 7, aux := 0, aux2 := 0, mod := 0 }) ∧
  decodeSlot 11 [0x00000000, 0x2B004980] = .ok (.jwait { g := 0, rd := 9, ra := 12, rb := 0, rc := 0, sub := 0, pt := 0 })

/-- R178: the encodings of ADD, SUB, MUL, MULH, MULHU, MIN, MAX, MINU, MAXU, of ABS with B reserved and of ADDI in the long form with B
reserved; they compute in 64-bit two's complement, wrap without a flag and write all 64 bits. -/
def Obligations.IntegerArithmetic : Prop :=
  (∀ (w h k : Nat) (i : OpG → Instr) (o : OpG), w / 2 ^ 25 % 128 = k →
    o = { g := w / 2 ^ 18 % 128, d := w / 2 ^ 12 % 64, a := w / 2 ^ 6 % 64, b := w % 64 } →
    ((k, i) ∈ [(0x00, Instr.add), (0x01, Instr.sub), (0x02, Instr.mul), (0x03, Instr.mulh), (0x04, Instr.mulhu), (0x09, Instr.min),
      (0x0A, Instr.max), (0x0B, Instr.minu), (0x0C, Instr.maxu)] → decodeSlot 1 [w] = .ok (i o)) ∧
    (k = 0x0D → decodeSlot 1 [w] = if o.b = 0 then .ok (.abs o) else .error .illegalField) ∧
    (k = 0x61 → h < 2 ^ 32 → decodeSlot 1 [w, h] =
      if o.b = 0 then .ok (.addi { g := o.g, d := o.d, a := o.a, b := 0, imm := h }) else .error .illegalField)) ∧
  (∀ (o : OpG) (s : State) (x y : Word), s.pS o.g = true → s.aR o.a = x → s.aR o.b = y →
    Does (.add o) s (fun t => WritesA s t o.d (BitVec.ofInt 64 (x.toInt + y.toInt)) 0) ∧
    Does (.sub o) s (fun t => WritesA s t o.d (BitVec.ofInt 64 (x.toInt - y.toInt)) 0) ∧
    Does (.mul o) s (fun t => WritesA s t o.d (BitVec.ofInt 64 (x.toInt * y.toInt)) 0) ∧
    Does (.mulh o) s (fun t => WritesA s t o.d (BitVec.ofInt 64 (x.toInt * y.toInt / 2 ^ 64)) 0) ∧
    Does (.mulhu o) s (fun t => WritesA s t o.d (BitVec.ofNat 64 (x.toNat * y.toNat / 2 ^ 64)) 0) ∧
    Does (.min o) s (fun t => WritesA s t o.d (if x.toInt < y.toInt then x else y) 0) ∧
    Does (.max o) s (fun t => WritesA s t o.d (if x.toInt > y.toInt then x else y) 0) ∧
    Does (.minu o) s (fun t => WritesA s t o.d (if x.toNat < y.toNat then x else y) 0) ∧
    Does (.maxu o) s (fun t => WritesA s t o.d (if x.toNat > y.toNat then x else y) 0) ∧
    Does (.abs o) s (fun t => WritesA s t o.d (if x.toInt < 0 then BitVec.ofInt 64 (0 - x.toInt) else x) 0)) ∧
  ∀ (o : OpL) (s : State) (x : Word), s.pS o.g = true → s.aR o.a = x →
    Does (.addi o) s (fun t => WritesA s t o.d (BitVec.ofInt 64 (x.toInt + (BitVec.ofNat 32 o.imm).toInt)) 0)

/-- R179: the encodings of DIV, DIVU, REM and REMU; quotients round toward zero, a remainder has the sign of the dividend; by zero all
ones or the dividend, with DZ, which an enabled DZ turns into the arithmetic trap and nothing is written. -/
def Obligations.IntegerDivision : Prop :=
  (∀ (w k : Nat) (i : OpG → Instr), (k, i) ∈ [(0x05, Instr.div), (0x06, Instr.divu), (0x07, Instr.rem), (0x08, Instr.remu)] →
    w / 2 ^ 25 % 128 = k →
    decodeSlot 1 [w] = .ok (i { g := w / 2 ^ 18 % 128, d := w / 2 ^ 12 % 64, a := w / 2 ^ 6 % 64, b := w % 64 })) ∧
  (∀ (o : OpG) (s : State) (x y : Word), s.pS o.g = true → s.aR o.a = x → s.aR o.b = y → y ≠ 0 →
    Does (.div o) s (fun t => WritesA s t o.d (BitVec.ofInt 64 (x.toInt.tdiv y.toInt)) 0) ∧
    Does (.rem o) s (fun t => WritesA s t o.d (BitVec.ofInt 64 (x.toInt.tmod y.toInt)) 0) ∧
    Does (.divu o) s (fun t => WritesA s t o.d (BitVec.ofNat 64 (x.toNat / y.toNat)) 0) ∧
    Does (.remu o) s (fun t => WritesA s t o.d (BitVec.ofNat 64 (x.toNat % y.toNat)) 0)) ∧
  (∀ (o : OpG) (s : State), s.pS o.g = true → s.aR o.b = 0 → fDZ &&& s.rs.trapen = 0 →
    Does (.div o) s (fun t => WritesA s t o.d 0xFFFFFFFFFFFFFFFF fDZ) ∧
    Does (.divu o) s (fun t => WritesA s t o.d 0xFFFFFFFFFFFFFFFF fDZ) ∧
    Does (.rem o) s (fun t => WritesA s t o.d (s.aR o.a) fDZ) ∧
    Does (.remu o) s (fun t => WritesA s t o.d (s.aR o.a) fDZ)) ∧
  ∀ (o : OpG) (s : State) (i : Instr), i ∈ [.div o, .divu o, .rem o, .remu o] →
    s.pS o.g = true → s.aR o.b = 0 → fDZ &&& s.rs.trapen ≠ 0 → Does i s (fun t => t = s.raise (arithTrap fDZ))

/-- R180: the encodings of the logical and shift instructions, logic, and shifts by B[5:0] or by the B field. R182, R183 (their encodings
stand above): the field of the effective width min(w, 64 - o), signed, unsigned or replaced, and the funnel shifts. -/
def Obligations.LogicShiftsAndFields : Prop :=
  ((∀ (w k : Nat) (i : OpG → Instr), (k, i) ∈ [(0x10, Instr.and), (0x11, Instr.or), (0x12, Instr.xor), (0x13, Instr.andn), (0x14, Instr.orn),
      (0x15, Instr.shl), (0x16, Instr.shr), (0x17, Instr.sar), (0x18, Instr.rotl), (0x19, Instr.shli), (0x1A, Instr.shri),
      (0x1B, Instr.sari), (0x24, Instr.bfx), (0x25, Instr.bfxu), (0x26, Instr.bfi), (0x27, Instr.fshl), (0x28, Instr.fshr)] →
    w / 2 ^ 25 % 128 = k →
    decodeSlot 1 [w] = .ok (i { g := w / 2 ^ 18 % 128, d := w / 2 ^ 12 % 64, a := w / 2 ^ 6 % 64, b := w % 64 })) ∧
  ∀ (o : OpG) (s : State) (x y : Word) (n : Nat), s.pS o.g = true → s.aR o.a = x → s.aR o.b = y → n = y.toNat % 64 →
    Does (.and o) s (fun t => WritesA s t o.d (x &&& y) 0) ∧
    Does (.or o) s (fun t => WritesA s t o.d (x ||| y) 0) ∧
    Does (.xor o) s (fun t => WritesA s t o.d (x ^^^ y) 0) ∧
    Does (.andn o) s (fun t => WritesA s t o.d (x &&& ~~~y) 0) ∧
    Does (.orn o) s (fun t => WritesA s t o.d (x ||| ~~~y) 0) ∧
    Does (.shl o) s (fun t => WritesA s t o.d (BitVec.ofNat 64 (x.toNat * 2 ^ n)) 0) ∧
    Does (.shr o) s (fun t => WritesA s t o.d (BitVec.ofNat 64 (x.toNat / 2 ^ n)) 0) ∧
    Does (.sar o) s (fun t => WritesA s t o.d (BitVec.ofInt 64 (x.toInt / 2 ^ n)) 0) ∧
    Does (.rotl o) s (fun t => WritesA s t o.d (BitVec.ofNat 64 (x.toNat * 2 ^ n + x.toNat / 2 ^ (64 - n))) 0) ∧
    (o.b < 64 →
      Does (.shli o) s (fun t => WritesA s t o.d (BitVec.ofNat 64 (x.toNat * 2 ^ o.b)) 0) ∧
      Does (.shri o) s (fun t => WritesA s t o.d (BitVec.ofNat 64 (x.toNat / 2 ^ o.b)) 0) ∧
      Does (.sari o) s (fun t => WritesA s t o.d (BitVec.ofInt 64 (x.toInt / 2 ^ o.b)) 0))) ∧
  (∀ (o : OpG) (s : State) (d x y : Word) (off w : Nat), s.pS o.g = true → s.aR o.d = d → s.aR o.a = x → s.aR o.b = y →
    off = y.toNat % 64 → w = min (y.toNat / 256 % 128) (64 - off) →
    Does (.bfxu o) s (fun t => ∃ v : Word, (∀ i, i < 64 → v.getLsbD i = (decide (i < w) && x.getLsbD (off + i))) ∧ WritesA s t o.d v 0) ∧
    Does (.bfx o) s (fun t => ∃ v : Word,
      (∀ i, i < 64 → v.getLsbD i = if i < w then x.getLsbD (off + i) else decide (0 < w) && x.getLsbD (off + w - 1)) ∧
      WritesA s t o.d v 0) ∧
    Does (.bfi o) s (fun t => ∃ v : Word,
      (∀ i, i < 64 → v.getLsbD i = if off ≤ i ∧ i < off + w then x.getLsbD (i - off) else d.getLsbD i) ∧ WritesA s t o.d v 0) ∧
    Does (.fshl o) s (fun t => WritesA s t o.d (BitVec.ofNat 64 ((d.toNat * 2 ^ 64 + x.toNat) * 2 ^ off / 2 ^ 64)) 0) ∧
    Does (.fshr o) s (fun t => WritesA s t o.d (BitVec.ofNat 64 ((d.toNat * 2 ^ 64 + x.toNat) / 2 ^ off)) 0))

/-- R181: CLZ, CTZ, POPC and BREV (OP 0x20 to 0x23) have the form op aD, aA with B reserved; they give the leading and trailing zeros (64
for 0), the number of 1 bits, and A with bit i moved to bit 63 - i. -/
def Obligations.BitCounts : Prop :=
  (∀ (w k : Nat) (i : OpG → Instr), (k, i) ∈ [(0x20, Instr.clz), (0x21, Instr.ctz), (0x22, Instr.popc), (0x23, Instr.brev)] → w / 2 ^ 25 % 128 = k →
    decodeSlot 1 [w] = if w % 64 = 0 then .ok (i { g := w / 2 ^ 18 % 128, d := w / 2 ^ 12 % 64, a := w / 2 ^ 6 % 64, b := 0 })
      else .error .illegalField) ∧
  ∀ (o : OpG) (s : State) (x : Word), s.pS o.g = true → s.aR o.a = x →
    Does (.clz o) s (fun t => ∃ n, n ≤ 64 ∧ (∀ i, i < n → x.getLsbD (63 - i) = false) ∧ (n < 64 → x.getLsbD (63 - n) = true) ∧
      WritesA s t o.d (BitVec.ofNat 64 n) 0) ∧
    Does (.ctz o) s (fun t => ∃ n, n ≤ 64 ∧ (∀ i, i < n → x.getLsbD i = false) ∧ (n < 64 → x.getLsbD n = true) ∧
      WritesA s t o.d (BitVec.ofNat 64 n) 0) ∧
    Does (.popc o) s (fun t => WritesA s t o.d (BitVec.ofNat 64 ((List.range 64).countP (fun i => x.getLsbD i))) 0) ∧
    Does (.brev o) s (fun t => ∃ v : Word, (∀ i, i < 64 → v.getLsbD i = x.getLsbD (63 - i)) ∧ WritesA s t o.d v 0)

/-- R184: CMP and CMPI write the condition to every bit of PT and its complement to every bit of PF. -/
def Obligations.Compares : Prop :=
  ∀ (o : OpL) (s : State) (c : Bool), s.pS o.g = true →
    (Sys2Proof.WellFormed (.cmp o) → (c = true ↔ integerCondition o.cmpCC (s.aR o.a) (s.aR o.b)) →
      Does (.cmp o) s (fun t => WritesPair s t o.cmpPT o.cmpPF c 0)) ∧
    (Sys2Proof.WellFormed (.cmpi o) →
      (c = true ↔ integerCondition o.cmpCC (s.aR o.a)
        (if o.cmpCC ∈ [4, 5, 8, 9, 10] then BitVec.ofNat 64 (o.imm / 2 ^ 18) else (BitVec.ofNat 14 (o.imm / 2 ^ 18)).signExtend 64)) →
      Does (.cmpi o) s (fun t => WritesPair s t o.cmpPT o.cmpPF c 0))

/-- R185, R186: SEL, MOVI and MOVL. -/
def Obligations.SelectsAndImmediates : Prop :=
  (∀ (o : OpL) (s : State), s.pS o.g = true →
    Does (.sel o) s (fun t => WritesA s t o.d (if s.pS o.imm = true then s.aR o.a else s.aR o.b) 0) ∧
    (o.b = 0 → Does (.movl o) s (fun t => WritesA s t o.d (BitVec.ofInt 64 (BitVec.ofNat 32 o.imm).toInt) 0)) ∧
    (o.b = 1 → Does (.movl o) s (fun t => WritesA s t o.d (BitVec.ofNat 64 (o.imm * 2 ^ 32 + (s.aR o.d).toNat % 2 ^ 32)) 0))) ∧
  ∀ (o : OpI) (s : State), s.pS o.g = true →
    Does (.movi o) s (fun t => WritesA s t o.d (BitVec.ofInt 64 (BitVec.ofNat 12 o.imm).toInt) 0)

/-- R192, R194, R196: the encodings of CSRR and CSRW, a write to an unassigned or read-only number being an illegal encoding; a read gives
the register's value; a write of TEPC keeps bits 55:2 and of TREP bits 3:0, and reserved bits are ignored; MBXR reads a mailbox and clears
its arrival bit; CYC reads the cycle counter. R29, R193, R370, R373: what each CSR number reads, the identity of a compute core among
them; an unassigned number reads zero. R198 to R201: WRANGE sets the range. WGET takes the next index of its own range and says so in its
predicate; with an empty range it takes the oldest portion of the forced pool whole where its cluster is not hot or no range can be split,
else the upper half of the first range with two indices or more in the order of the search, and its answer comes within 320 cycles; where
there is neither the answer is 0 and the range stays. -/
def Obligations.SystemRegisters : Prop :=
  ((∀ (w : Nat) (o : OpG), o = { g := w / 2 ^ 18 % 128, d := w / 2 ^ 12 % 64, a := w / 2 ^ 6 % 64, b := 0 } →
    (w / 2 ^ 25 % 128 = 0x38 → decodeSlot 1 [w] = if w % 64 = 0 then .ok (.csrr o) else .error .illegalField) ∧
    (w / 2 ^ 25 % 128 = 0x39 → decodeSlot 1 [w] =
      if w % 64 = 0 ∧ (o.d = 0x08 ∨ 0x0B ≤ o.d ∧ o.d ≤ 0x11) then .ok (.csrw o) else .error .illegalField)) ∧
  ∀ (o : OpG) (s : State), s.pS o.g = true →
    Does (.csrr o) s (fun t => WritesA s t o.d (s.csr o.a) 0) ∧
    (o.d = 0x08 → Does (.csrw o) s (fun t => StrandIs s t { s.st with tepc := BitVec.ofNat 56 ((s.aR o.a).toNat % 2 ^ 56 / 4 * 4) })) ∧
    (o.d = 0x0B → Does (.csrw o) s (fun t => StrandIs s t { s.st with trep := BitVec.ofNat 4 ((s.aR o.a).toNat % 16) })) ∧
    (0x0C ≤ o.d ∧ o.d ≤ 0x0F → Does (.csrw o) s (fun t => OnlyStrand s t ∧ { t.st with tkeep := s.st.tkeep } = s.st ∧
      ∀ n, NMap.get 0 t.st.tkeep n = if n = o.d - 0x0C then s.aR o.a else NMap.get 0 s.st.tkeep n)) ∧
    (o.d = 0x10 → Does (.csrw o) s (fun t => StrandIs s t { s.st with flags := BitVec.ofNat 7 ((s.aR o.a).toNat % 128) })) ∧
    (o.d = 0x11 → Does (.csrw o) s (fun t => StrandIs s t { s.st with trapen := BitVec.ofNat 7 ((s.aR o.a).toNat % 128) })) ∧
    Does (.mbxr o) s (fun t => OnlyStrand s t ∧ { t.st with a := s.st.a, arrive := s.st.arrive } = s.st ∧
      (∀ n, aNow t n = if n = o.d then NMap.get 0 s.rs.mbx o.a else aNow s n) ∧
      ∀ n, n < 16 → t.st.arrive.getLsbD n = (s.st.arrive.getLsbD n && n != o.a)) ∧
    Does (.cyc o) s (fun t => WritesA s t o.d (BitVec.ofNat 64 s.cycle) 0)) ∧
  (∀ (s : State) (c : Nat), c = s.coreOf (teamOf s.cur) →
    (c < 192 → s.csr 0x00 = BitVec.ofNat 64 (2 ^ 16 * (s.st.slot % 4) +
      2 ^ 8 * ((32 * (List.range (c / 32)).countP (fun k => decide (k < 6) && s.roleMap.testBit k) + c % 32) % 256) +
      2 ^ 5 * (c / 32) + 2 ^ 2 * (c / 4 % 8) + c % 4)) ∧
    s.csr 0x01 = BitVec.ofNat 64 s.epoch ∧ s.csr 0x02 = s.rs.wid ∧ s.csr 0x03 = BitVec.ofNat 64 (s.tm.lh % 2 ^ 32) ∧
    s.csr 0x04 = BitVec.ofNat 64 ((if s.rs.tmode then 4 else 0) + s.rs.level % 4) ∧ s.csr 0x05 = s.rs.wnext ∧ s.csr 0x06 = s.rs.wend ∧
    s.csr 0x08 = BitVec.ofNat 64 s.rs.tepc.toNat ∧ s.csr 0x09 = BitVec.ofNat 64 s.rs.tcause.toNat ∧ s.csr 0x0A = s.rs.tinfo ∧
    s.csr 0x0B = BitVec.ofNat 64 s.rs.trep.toNat ∧ (∀ n, n < 4 → s.csr (0x0C + n) = NMap.get 0 s.rs.tkeep n) ∧
    s.csr 0x10 = BitVec.ofNat 64 s.rs.flags.toNat ∧ s.csr 0x11 = BitVec.ofNat 64 s.rs.trapen.toNat ∧
    s.csr 0x12 = BitVec.ofNat 64 (256 * s.storeCourses.length) ∧
    s.csr 0x13 = BitVec.ofNat 64 (2 ^ 8 * s.storeCourses.length + (s.storeCourses.map (fun k => 2 ^ k)).sum) ∧
    s.csr 0x14 = BitVec.ofNat 64 (2 ^ 17 * (s.tm.xp % 2048) + 2 ^ 6 * (s.tm.wp % 2048) + s.tm.tiles % 64) ∧
    ∀ n, 0x14 < n ∨ n = 7 → s.csr n = 0) ∧
  (∀ (o : OpG) (s : State) (l : Nat) (hot : Bool), s.pS o.g = true → l = s.tm.launch →
    hot = (s.cluster (clusterOf (s.coreOf (teamOf s.cur)))).hot →
    Does (.wrange o) s (fun t => StrandIs s t { s.st with wnext := s.aR o.a, wend := s.aR o.b }) ∧
    (s.rs.wnext.toNat < s.rs.wend.toNat → Does (.wget o) s (fun t => OnlyStrand s t ∧
      { t.st with a := s.st.a, ps := s.st.ps, pl := s.st.pl, wnext := s.st.wnext } = s.st ∧
      (∀ n, aNow t n = if n = o.d then s.rs.wnext else aNow s n) ∧ t.st.wnext = s.rs.wnext + 1 ∧
      ∀ n, t.st.pS n = (n == 0 || n == o.a || s.st.pS n) ∧
        t.st.pL n = if n = 0 ∨ n = o.a then BitVec.allOnes 128 else s.st.pL n)) ∧
    (s.rs.wend.toNat ≤ s.rs.wnext.toNat →
      (∀ lo hi r, (hot = false ∨ ∀ k ∈ s.stealOrder s.cur, (s.strand k).wend.toNat ≤ (s.strand k).wnext.toNat + 1) →
        (s.launch l).pool = (lo, hi) :: r →
        Does (.wget o) s (fun t => t.mem = s.mem ∧ t.teams = s.teams ∧ (t.launch l).pool = r ∧ (∀ k, k ≠ s.cur → t.strand k = s.strand k) ∧
          ∃ due, s.cycle < due ∧ due ≤ s.cycle + 320 ∧ t.st = { s.st with
            wnext := BitVec.ofNat 64 (lo + 1), wend := BitVec.ofNat 64 hi
            pend := s.st.pend ++ [{ global := false, dest := .ap o.d o.a, value := lo, due := due }] })) ∧
      (∀ v mid, (hot = true ∨ (s.launch l).pool = []) →
        (s.stealOrder s.cur).find? (fun k => decide (2 ≤ (s.strand k).wend.toNat - (s.strand k).wnext.toNat)) = some v → v ≠ s.cur →
        mid = (s.strand v).wnext.toNat + ((s.strand v).wend.toNat - (s.strand v).wnext.toNat + 1) / 2 →
        Does (.wget o) s (fun t => OnlyStrands { s with freeN := t.freeN } t ∧ (∀ k, k ≠ s.cur → k ≠ v → t.strand k = s.strand k) ∧
          t.strand v = { s.strand v with wend := BitVec.ofNat 64 mid } ∧
          ∃ due, s.cycle < due ∧ due ≤ s.cycle + 320 ∧ t.st = { s.st with
            wnext := BitVec.ofNat 64 (mid + 1), wend := (s.strand v).wend
            pend := s.st.pend ++ [{ global := false, dest := .ap o.d o.a, value := mid, due := due }] })) ∧
      ((s.launch l).pool = [] → (∀ k ∈ s.stealOrder s.cur, (s.strand k).wend.toNat ≤ (s.strand k).wnext.toNat + 1) →
        Does (.wget o) s (fun t => OnlyStrand { s with freeN := t.freeN } t ∧
          ∃ due, s.cycle < due ∧ due ≤ s.cycle + 320 ∧ t.st = { s.st with
            pend := s.st.pend ++ [{ global := false, dest := .ap o.d o.a, value := 0, ok := false, due := due }] }))))

/-- R27, R194: a mailbox write to a strand of a bound team sets the mailbox and its arrival bit and ends a WAITP that waits for it; a
stale handle drops and counts it. R197, R239, R137: a transom copy leaves every register as it was and puts one write in flight for each
register it names: due 2 cycles later in a branch-target register, 3 from an A register to the bays, 4 out of a bay. -/
def Obligations.MailboxesAndTransom : Prop :=
  (∀ (o : OpG) (s : State) (lh core str m : Nat), s.pS o.g = true → o.d = 0 →
    lh = (s.aR o.a).toNat / 2 ^ 32 → core = (s.aR o.a).toNat / 2 ^ 16 % 256 → str = (s.aR o.a).toNat / 256 % 4 → m = (s.aR o.a).toNat % 16 →
    (∀ l h t, s.launchOf lh = some l → (s.launch l).hdr = some h → core < h.cores → str < h.strands → s.slotOf l core = some t →
      (s.strand (4 * t + str)).run ≠ .exited → (s.strand (4 * t + str)).run ≠ .terminated →
      Does (.mbxw o) s (fun u => OnlyStrands s u ∧ (∀ k, k ≠ 4 * t + str → u.strand k = s.strand k) ∧
        { u.strand (4 * t + str) with
          mbx := (s.strand (4 * t + str)).mbx, arrive := (s.strand (4 * t + str)).arrive, run := (s.strand (4 * t + str)).run } =
          s.strand (4 * t + str) ∧
        (∀ n, NMap.get 0 (u.strand (4 * t + str)).mbx n = if n = m then s.aR o.b else NMap.get 0 (s.strand (4 * t + str)).mbx n) ∧
        (∀ n, n < 16 → (u.strand (4 * t + str)).arrive.getLsbD n = ((s.strand (4 * t + str)).arrive.getLsbD n || n == m)) ∧
        (∀ mask, (s.strand (4 * t + str)).run = .blocked (.mbx mask) → bit mask m = true → (u.strand (4 * t + str)).run = .ready))) ∧
    (s.launchOf lh = none → Does (.mbxw o) s (fun u =>
      { u with mbxDrop := s.mbxDrop } = s ∧ u.mbxDrop = if s.mbxDrop + 1 < 2 ^ 64 then s.mbxDrop + 1 else s.mbxDrop))) ∧
  ((∀ (o : OpG) (s : State) (x : Nat), s.pS o.g = true → (s.aR o.a).toNat = x →
    Does (.xmovaB o) s (fun t => OnlyStrand s t ∧
      t.st = { s.st with transom := s.st.transom ++ [{ due := s.cycle + 2, dest := .b o.d false, vals := [x % 2 ^ 56] }],
                         bwrite := t.st.bwrite, bfetch := t.st.bfetch }) ∧
    Does (.xmovaV o) s (fun t => StrandIs s t { s.st with
      transom := s.st.transom ++ (List.range 8).map (fun b =>
        { due := s.cycle + 3, dest := .v b o.d, vals := List.replicate 16 (x % 2 ^ 32), tag := 0 }) }) ∧
    Does (.xmovaPair o) s (fun t => StrandIs s t { s.st with
      transom := s.st.transom ++ (List.range 8).map (fun b =>
        { due := s.cycle + 3, dest := .v b o.d, tag := 0,
          vals := (List.range 16).map (fun l => if l % 2 = 0 then x % 2 ^ 32 else x / 2 ^ 32) }) })) ∧
  ∀ (o : OpV) (s : State), s.anyActive o.g o.bay = true →
    (o.b < 8 → Does (.xmovvBay o) s (fun t => StrandIs s t { s.st with
      transom := s.st.transom ++ [{ due := s.cycle + 4, dest := .v o.b o.d, tag := s.vTagR o.bay o.a,
                                    vals := (List.range 16).map (fun l => (s.vR o.bay o.a l).toNat) }] })) ∧
    (o.b = 8 → Does (.xmovvAll o) s (fun t => StrandIs s t { s.st with
      transom := s.st.transom ++ (List.range 8).map (fun b =>
        { due := s.cycle + 4, dest := .v b o.d, tag := s.vTagR o.bay o.a,
          vals := (List.range 16).map (fun l => (s.vR o.bay o.a l).toNat) }) })) ∧
    (16 ≤ o.b ∧ o.b < 32 → Does (.xmovvA o) s (fun t => StrandIs s t { s.st with
      transom := s.st.transom ++ [{ due := s.cycle + 4, dest := .a o.d, vals := [(s.vR o.bay o.a (o.b - 16)).toNat] }] })) ∧
    (32 ≤ o.b ∧ o.b < 40 → Does (.xmovvA2 o) s (fun t => StrandIs s t { s.st with
      transom := s.st.transom ++ [{
        due := s.cycle + 4, dest := .a o.d,
        vals := [(s.vR o.bay o.a (2 * (o.b - 32) + 1)).toNat * 2 ^ 32 + (s.vR o.bay o.a (2 * (o.b - 32))).toNat] }] })))

/-- R203 to R206, R51: scalar floating point. Bits 31:0 of the sources are FP32 codes; the result is the exact value rounded, in bits
31:0, or, for the ten codes of FCVT, the converted number. A flag that is enabled takes the arithmetic trap and nothing is written (R30). -/
def Obligations.ScalarFloat : Prop :=
  (∀ (o : OpG) (s : State) (x y z : FVal) (f : Flags),
    s.pS o.g = true → fp32.decode ((s.aR o.a).toNat % 2 ^ 32) = x → fp32.decode ((s.aR o.b).toNat % 2 ^ 32) = y →
    fp32.decode ((s.aR o.d).toNat % 2 ^ 32) = z →
    (∀ i v, (i = .fadd o ∧ v = x.add y) ∨ (i = .fsub o ∧ v = x.sub y) ∨ (i = .fmul o ∧ v = x.mul y) ∨ (i = .ffma o ∧ v = x.fma y z) →
      (fp32.result v).2 = f →
      (f &&& s.rs.trapen = 0 → Does i s (fun t => WritesA s t o.d (BitVec.ofNat 64 (fp32.round v.1).1) f)) ∧
      (f &&& s.rs.trapen ≠ 0 → Does i s (fun t => t = s.raise { prio := 130, code := 0x08, tinfo := f.zeroExtend 64, flags := f }))) ∧
    ∀ (r : Word) (n : Int), o.b < 10 →
      (o.b = 0 → (r, f) = (BitVec.ofNat 64 (fp32.round (ofInt (s.aR o.a).toInt)).1, (fp32.round (ofInt (s.aR o.a).toInt)).2)) →
      (o.b = 1 → (r, f) = (BitVec.ofNat 64 (fp32.round (ofInt (s.aR o.a).toNat)).1, (fp32.round (ofInt (s.aR o.a).toNat)).2)) →
      (o.b = 2 → (n, f) = x.toInt (-2 ^ 63) (2 ^ 63 - 1) ∧ r = BitVec.ofInt 64 n) →
      (o.b = 3 → (n, f) = x.toInt 0 (2 ^ 64 - 1) ∧ r = BitVec.ofInt 64 n) →
      (o.b = 4 → (n, f) = x.toInt (-2 ^ 31) (2 ^ 31 - 1) ∧ r = BitVec.ofInt 64 n) →
      (o.b = 5 → (r, f) = (BitVec.ofNat 64 (fp32.round (ofInt ((s.aR o.a).truncate 32).toInt)).1,
        (fp32.round (ofInt ((s.aR o.a).truncate 32).toInt)).2)) →
      (o.b = 6 → (r, f) = (BitVec.ofNat 64 (bf16.round x).1, (bf16.round x).2)) →
      (∀ y, o.b = 7 → bf16.decode ((s.aR o.a).toNat % 2 ^ 16) = y → (r, f) = (BitVec.ofNat 64 (fp32.round y).1, (fp32.round y).2)) →
      (o.b = 8 → (r, f) = (BitVec.ofNat 64 (fp16.round x).1, (fp16.round x).2)) →
      (∀ y, o.b = 9 → fp16.decode ((s.aR o.a).toNat % 2 ^ 16) = y → (r, f) = (BitVec.ofNat 64 (fp32.round y).1, (fp32.round y).2)) →
      (f &&& s.rs.trapen = 0 → Does (.fcvt o) s (fun t => WritesA s t o.d r f)) ∧
      (f &&& s.rs.trapen ≠ 0 → Does (.fcvt o) s (fun t => t = s.raise { prio := 130, code := 0x08, tinfo := f.zeroExtend 64, flags := f }))) ∧
  (∀ (o : OpL) (s : State) (x y : FVal) (c : Bool) (f : Flags), Sys2Proof.WellFormed (.fcmp o) → s.pS o.g = true →
    fp32.decode ((s.aR o.a).toNat % 2 ^ 32) = x → fp32.decode ((s.aR o.b).toNat % 2 ^ 32) = y →
    (c = true ↔ (o.cmpCC = 0 ∧ x.eqv y) ∨ (o.cmpCC = 1 ∧ ¬ x.eqv y) ∨ (o.cmpCC = 2 ∧ x.lt y) ∨ (o.cmpCC = 3 ∧ (x.lt y ∨ x.eqv y)) ∨
      (o.cmpCC = 4 ∧ (x.isNan ∨ y.isNan)) ∨ (o.cmpCC = 5 ∧ ¬ (x.isNan ∨ y.isNan))) →
    f = (if x.isSnan ∨ y.isSnan ∨ ((x.isNan ∨ y.isNan) ∧ (o.cmpCC = 2 ∨ o.cmpCC = 3)) then fNV else 0) →
    (f &&& s.rs.trapen = 0 → Does (.fcmp o) s (fun t => WritesPair s t o.cmpPT o.cmpPF c f)) ∧
    (f &&& s.rs.trapen ≠ 0 → Does (.fcmp o) s (fun t => t = s.raise { prio := 130, code := 0x08, tinfo := f.zeroExtend 64, flags := f }))) ∧
  (∀ b lo hi, (FVal.nan b).toInt lo hi = (0, fNV)) ∧ (∀ b lo hi, (FVal.inf b).toInt lo hi = (if b then lo else hi, fSAT ||| fNX)) ∧
  ∀ (neg up : Bool) (n d : Nat) (lo hi m : Int), 0 < d → (up = true ↔ d < 2 * (n % d) ∨ d = 2 * (n % d) ∧ (n / d) % 2 = 1) →
    m = (if neg then -1 else 1) * ((if up then n / d + 1 else n / d : Nat) : Int) →
    (FVal.num neg n d).toInt lo hi =
      if m < lo then (lo, fSAT ||| fNX) else if hi < m then (hi, fSAT ||| fNX) else (m, if n % d = 0 then 0 else fNX)

/-- R176, R177: predicate logic on the bits that PART selects: S for 0 and 1, the lane bits for 0 and 2. -/
def Obligations.PredicateLogic : Prop :=
  ∀ (o : OpQ) (s : State), o.part < 3 → ∀ (i : Instr) (sv : Bool) (lv : BitVec 128),
    (i = .pand o ∧ sv = (s.pS o.pa && s.pS o.pb) ∧ lv = s.pL o.pa &&& s.pL o.pb) ∨
    (i = .por o ∧ sv = (s.pS o.pa || s.pS o.pb) ∧ lv = s.pL o.pa ||| s.pL o.pb) ∨
    (i = .pxor o ∧ sv = (s.pS o.pa != s.pS o.pb) ∧ lv = s.pL o.pa ^^^ s.pL o.pb) ∨
    (i = .pandn o ∧ sv = (s.pS o.pa && !s.pS o.pb) ∧ lv = s.pL o.pa &&& ~~~(s.pL o.pb)) ∨
    (i = .pmov o ∧ sv = s.pS o.pa ∧ lv = s.pL o.pa) ∨
    (i = .pany o ∧ (sv = true ↔ ∃ l, l < 128 ∧ (s.pL o.pa).getLsbD l = true ∧ (s.pL o.pb).getLsbD l = true) ∧
      lv = if sv then BitVec.allOnes 128 else 0) ∨
    (i = .pall o ∧ (sv = true ↔ ∀ l, l < 128 → (s.pL o.pa).getLsbD l = true ∨ (s.pL o.pb).getLsbD l = false) ∧
      lv = if sv then BitVec.allOnes 128 else 0) →
    Does i s (fun t => WritesP s t 0
      (fun n => if n = o.pd ∧ o.part ≠ 2 then sv else s.st.pS n)
      (fun n => if n = o.pd ∧ o.part ≠ 1 then lv else s.st.pL n))

/-- R213: 32-bit lanes in two's complement, wrapping without a flag, in the active lanes; the tag becomes 0x000 (R73). -/
def Obligations.LaneArithmetic : Prop :=
  ∀ (o : OpV) (s : State) (d x y : Nat → Lane), o.inRange = true →
    (∀ l, s.vR o.bay o.d l = d l) → (∀ l, s.vR o.bay o.a l = x l) → (∀ l, s.vR o.bay o.b l = y l) →
    ∀ (i : Instr) (f : Nat → Lane),
      (i = .vadd o ∧ f = fun l => BitVec.ofInt 32 ((x l).toInt + (y l).toInt)) ∨
      (i = .vsub o ∧ f = fun l => BitVec.ofInt 32 ((x l).toInt - (y l).toInt)) ∨
      (i = .vmul o ∧ f = fun l => BitVec.ofInt 32 ((x l).toInt * (y l).toInt)) ∨
      (i = .vmulh o ∧ f = fun l => BitVec.ofInt 32 ((x l).toInt * (y l).toInt / 2 ^ 32)) ∨
      (i = .vmulhu o ∧ f = fun l => BitVec.ofNat 32 ((x l).toNat * (y l).toNat / 2 ^ 32)) ∨
      (i = .vmad o ∧ f = fun l => BitVec.ofInt 32 ((x l).toInt * (y l).toInt + (d l).toInt)) ∨
      (i = .vmin o ∧ f = fun l => if (x l).toInt < (y l).toInt then x l else y l) ∨
      (i = .vmax o ∧ f = fun l => if (x l).toInt > (y l).toInt then x l else y l) ∨
      (i = .vminu o ∧ f = fun l => if (x l).toNat < (y l).toNat then x l else y l) ∨
      (i = .vmaxu o ∧ f = fun l => if (x l).toNat > (y l).toNat then x l else y l) ∨
      (i = .vabs o ∧ f = fun l => if (x l).toInt < 0 then BitVec.ofInt 32 (0 - (x l).toInt) else x l) →
      Does i s (fun t => WritesV s t o.bay o.d 0 (s.active o.g o.bay) f 0)

/-- R213, R215: logic, shifts by B[4:0], counts and immediates, lane by lane. R214: bit fields of width min(w, 32 - o) and funnel shifts,
lane by lane. -/
def Obligations.LaneLogicAndFields : Prop :=
  ((∀ (o : OpV) (s : State) (x y : Nat → Lane), o.inRange = true →
    (∀ l, s.vR o.bay o.a l = x l) → (∀ l, s.vR o.bay o.b l = y l) →
    ∀ (i : Instr) (f : Nat → Lane),
      (i = .vand o ∧ f = fun l => x l &&& y l) ∨
      (i = .vor o ∧ f = fun l => x l ||| y l) ∨
      (i = .vxor o ∧ f = fun l => x l ^^^ y l) ∨
      (i = .vandn o ∧ f = fun l => x l &&& ~~~(y l)) ∨
      (i = .vshl o ∧ f = fun l => BitVec.ofNat 32 ((x l).toNat * 2 ^ ((y l).toNat % 32))) ∨
      (i = .vshr o ∧ f = fun l => BitVec.ofNat 32 ((x l).toNat / 2 ^ ((y l).toNat % 32))) ∨
      (i = .vsar o ∧ f = fun l => BitVec.ofInt 32 ((x l).toInt / 2 ^ ((y l).toNat % 32))) ∨
      (i = .vpopc o ∧ f = fun l => BitVec.ofNat 32 ((List.range 32).countP (fun k => (x l).getLsbD k))) →
      Does i s (fun t => WritesV s t o.bay o.d 0 (s.active o.g o.bay) f 0)) ∧
  (∀ (o : OpV) (s : State), o.inRange = true →
    Does (.vclz o) s (fun t => ∃ n : Nat → Nat,
      (∀ l, n l ≤ 32 ∧ (∀ k, k < n l → (s.vR o.bay o.a l).getLsbD (31 - k) = false) ∧
        (n l < 32 → (s.vR o.bay o.a l).getLsbD (31 - n l) = true)) ∧
      WritesV s t o.bay o.d 0 (s.active o.g o.bay) (fun l => BitVec.ofNat 32 (n l)) 0)) ∧
  ∀ (o : OpVI) (s : State), Sys2Proof.WellFormed (.vmovi o) →
    Does (.vmovi o) s (fun t =>
      WritesV s t o.bay o.d 0 (s.active o.g o.bay) (fun _ => BitVec.ofInt 32 (BitVec.ofNat 12 o.imm).toInt) 0)) ∧
  (∀ (o : OpV) (s : State) (d x y : Nat → Lane) (off w : Nat → Nat), o.inRange = true →
    (∀ l, s.vR o.bay o.d l = d l) → (∀ l, s.vR o.bay o.a l = x l) → (∀ l, s.vR o.bay o.b l = y l) →
    (∀ l, off l = (y l).toNat % 32) → (∀ l, w l = min ((y l).toNat / 256 % 64) (32 - off l)) →
    Does (.vbfxu o) s (fun t => ∃ v : Nat → Lane,
      (∀ l i, i < 32 → (v l).getLsbD i = (decide (i < w l) && (x l).getLsbD (off l + i))) ∧
      WritesV s t o.bay o.d 0 (s.active o.g o.bay) v 0) ∧
    Does (.vbfx o) s (fun t => ∃ v : Nat → Lane,
      (∀ l i, i < 32 → (v l).getLsbD i =
        if i < w l then (x l).getLsbD (off l + i) else decide (0 < w l) && (x l).getLsbD (off l + w l - 1)) ∧
      WritesV s t o.bay o.d 0 (s.active o.g o.bay) v 0) ∧
    Does (.vbfi o) s (fun t => ∃ v : Nat → Lane,
      (∀ l i, i < 32 → (v l).getLsbD i = if off l ≤ i ∧ i < off l + w l then (x l).getLsbD (i - off l) else (d l).getLsbD i) ∧
      WritesV s t o.bay o.d 0 (s.active o.g o.bay) v 0) ∧
    Does (.vfshl o) s (fun t => WritesV s t o.bay o.d 0 (s.active o.g o.bay)
      (fun l => BitVec.ofNat 32 (((d l).toNat * 2 ^ 32 + (x l).toNat) * 2 ^ off l / 2 ^ 32)) 0) ∧
    Does (.vfshr o) s (fun t => WritesV s t o.bay o.d 0 (s.active o.g o.bay)
      (fun l => BitVec.ofNat 32 (((d l).toNat * 2 ^ 32 + (x l).toNat) / 2 ^ off l)) 0))

/-- R216, R217: the compares write the bay's sixteen lane bits of PT and their complement to those of PF, and leave S and the other bays;
VSEL selects by the predicate's lane bits and writes all sixteen lanes. -/
def Obligations.LaneComparesAndSelect : Prop :=
  (∀ (o : OpP) (s : State) (k : Nat → Bool) (f : Flags) (i : Instr), o.inRange = true →
    (i = .vcmp o ∧ f = 0 ∧ ∀ l, k l = true ↔ integerCondition o.cc (s.vR o.bay o.a l) (s.vR o.bay o.b l)) ∨
    (i = .vcmpi o ∧ f = 0 ∧ ∀ l, k l = true ↔ integerCondition o.cc (s.vR o.bay o.a l)
      (if o.cc < 4 then (BitVec.ofNat 6 o.b).signExtend 32 else BitVec.ofNat 32 o.b)) ∨
    (i = .vfcmp o ∧ f &&& s.rs.trapen = 0 ∧
      (∀ l, k l = (floatCond o.cc (fp32.decode (s.vR o.bay o.a l).toNat) (fp32.decode (s.vR o.bay o.b l).toNat)).1) ∧
      RaisedIf f fNV (∃ l, l < 16 ∧ (floatCond o.cc (fp32.decode (s.vR o.bay o.a l).toNat) (fp32.decode (s.vR o.bay o.b l).toNat)).2 = fNV)) →
    Does i s (fun t => OnlyStrand s t ∧ { t.st with pl := s.st.pl, flags := s.st.flags } = s.st ∧ t.st.flags = s.st.flags ||| f ∧
      ∀ n b l, n ≠ 0 → b < 8 → l < 16 → (t.st.pL n).getLsbD (16 * b + l) =
        if b ≠ o.bay then (s.st.pL n).getLsbD (16 * b + l) else if n = o.pf then !k l else if n = o.pt then k l
        else (s.st.pL n).getLsbD (16 * b + l))) ∧
  ∀ (o : OpV) (s : State), o.inRange = true →
    Does (.vsel o) s (fun t => WritesV s t o.bay o.d 0 (fun _ => true)
      (fun l => if (s.pL o.g).getLsbD (16 * o.bay + l) = true then s.vR o.bay o.a l else s.vR o.bay o.b l) 0)

/-- R218: VADDSAT and VSUBSAT clamp each signed half to 16 bits, and set SAT when a half of an active lane clamps. R219, R220: the dot
products accumulate exactly, saturate or wrap, and trap on tags that do not align. -/
def Obligations.PackedAndDotProducts : Prop :=
  (∀ (o : OpV) (s : State) (i : Instr) (e : Nat → Nat → Int) (f : Flags), o.inRange = true →
    (i = .vaddsat o ∧ (∀ l h, h < 2 → e l h = ((s.vR o.bay o.a l).extractLsb' (16 * h) 16).toInt + ((s.vR o.bay o.b l).extractLsb' (16 * h) 16).toInt) ∨
     i = .vsubsat o ∧ (∀ l h, h < 2 → e l h = ((s.vR o.bay o.a l).extractLsb' (16 * h) 16).toInt - ((s.vR o.bay o.b l).extractLsb' (16 * h) 16).toInt)) →
    RaisedIf f fSAT (∃ l h, l < 16 ∧ h < 2 ∧ s.active o.g o.bay l = true ∧ (e l h < -32768 ∨ 32767 < e l h)) →
    f &&& s.rs.trapen = 0 →
    Does i s (fun t => WritesV s t o.bay o.d 0 (s.active o.g o.bay)
      (fun l => (BitVec.ofInt 16 (max (-32768) (min 32767 (e l 1))) ++ BitVec.ofInt 16 (max (-32768) (min 32767 (e l 0))) : BitVec 32)) f)) ∧
  ((∀ (o : OpV) (s : State) (i : Instr) (g n : Nat) (sat : Bool) (e : Nat → Int) (f : Flags), o.inRange = true →
    (i = .vdot4 o ∧ g = o.g ∧ n = 8 ∧ sat = false) ∨ (i = .vdot4s o ∧ g = o.g ∧ n = 8 ∧ sat = true) ∨
      (i = .vdot2 o ∧ g = o.g % 64 ∧ n = 16 ∧ sat = decide (64 ≤ o.g)) →
    s.anyActive g o.bay = true → tagCause (512 / n) (s.vTagR o.bay o.a) (s.vTagR o.bay o.b) = none →
    (∀ l, e l = (s.vR o.bay o.d l).toInt + ((List.range (32 / n)).map (fun j =>
      ((s.vR o.bay o.a l).extractLsb' (n * j) n).toInt * ((s.vR o.bay o.b l).extractLsb' (n * j) n).toInt)).sum) →
    RaisedIf f fSAT (sat = true ∧ ∃ l, l < 16 ∧ s.active g o.bay l = true ∧ (e l < -2147483648 ∨ 2147483647 < e l)) →
    f &&& s.rs.trapen = 0 →
    Does i s (fun t => WritesV s t o.bay o.d 0 (s.active g o.bay)
      (fun l => BitVec.ofInt 32 (if sat then max (-2147483648) (min 2147483647 (e l)) else e l)) f)) ∧
  ∀ (o : OpV) (s : State) (c : Nat), s.anyActive o.g o.bay = true → tagCause 64 (s.vTagR o.bay o.a) (s.vTagR o.bay o.b) = some c →
    ∀ i ∈ [Instr.vdot4 o, Instr.vdot4s o],
      Does i s (fun t => t = s.raise (tagTrap true (64 * o.bay + o.a) (64 * o.bay + o.b) c (s.vTagR o.bay o.a) (s.vTagR o.bay o.b))))

/-- R221 to R225: the active lanes of a float lane instruction take the lane results, whose rules follow, with the flags of the active
lanes; where TRAPEN enables one of those flags, the arithmetic trap is taken and nothing is written. R222: the lesser and the greater of
two codes, -0 below +0, a NaN giving way to the other operand. R224, R51: each conversion of VFCVT. R225: 1/A is the exact quotient
rounded; 1/√A of a number above 0 is within half a unit in the last place, and inexact unless it is exact; 2^A of an integer and log2 of a
power of two are exact; and the special operands of all four. -/
def Obligations.LaneFloat : Prop :=
  (∀ (o : OpV) (s : State) (i : Instr) (r : Nat → Nat × Flags) (f : Flags) (d x y : Nat → Nat), o.inRange = true →
    (∀ l, (s.vR o.bay o.d l).toNat = d l) → (∀ l, (s.vR o.bay o.a l).toNat = x l) → (∀ l, (s.vR o.bay o.b l).toNat = y l) →
    (i = .vfadd o ∧ r = fun l => fp32.result ((fp32.decode (x l)).add (fp32.decode (y l)))) ∨
    (i = .vfsub o ∧ r = fun l => fp32.result ((fp32.decode (x l)).sub (fp32.decode (y l)))) ∨
    (i = .vfmul o ∧ r = fun l => fp32.result ((fp32.decode (x l)).mul (fp32.decode (y l)))) ∨
    (i = .vfma o ∧ r = fun l => fp32.result ((fp32.decode (x l)).fma (fp32.decode (y l)) (fp32.decode (d l)))) ∨
    (i = .vfmin o ∧ r = fun l => minMax false (x l) (y l)) ∨
    (i = .vfmax o ∧ r = fun l => minMax true (x l) (y l)) ∨
    (i = .vfabs o ∧ r = fun l => if (fp32.decode (x l)).isNan then (0x7FC00000, if (fp32.decode (x l)).isSnan then fNV else 0)
      else (x l % 2 ^ 31, 0)) ∨
    (i = .vfneg o ∧ r = fun l => if (fp32.decode (x l)).isNan then (0x7FC00000, if (fp32.decode (x l)).isSnan then fNV else 0)
      else ((x l + 2 ^ 31) % 2 ^ 32, 0)) ∨
    (i = .vbfma o ∧ r = fun l =>
      let lo := bf16.result ((bf16.decode (x l % 65536)).fma (bf16.decode (y l % 65536)) (bf16.decode (d l % 65536)))
      let hi := bf16.result ((bf16.decode (x l / 65536)).fma (bf16.decode (y l / 65536)) (bf16.decode (d l / 65536)))
      (hi.1 * 65536 + lo.1, lo.2 ||| hi.2)) ∨
    (i = .vfcvt o ∧ r = fun l => vfcvtCode o.b (d l) (x l)) ∨
    (i = .vrcp o ∧ r = fun l => rcpC (x l)) ∨ (i = .vrsq o ∧ r = fun l => rsqC (x l)) ∨
    (i = .vexp2 o ∧ r = fun l => exp2C (x l)) ∨ (i = .vlog2 o ∧ r = fun l => log2C (x l)) →
    f = ((List.range 16).filter (s.active o.g o.bay)).foldl (fun g l => g ||| (r l).2) 0 →
    (f &&& s.rs.trapen = 0 →
      Does i s (fun t => WritesV s t o.bay o.d 0 (s.active o.g o.bay) (fun l => BitVec.ofNat 32 (r l).1) f)) ∧
    (f &&& s.rs.trapen ≠ 0 → Does i s (fun t => t = s.raise (arithTrap f)))) ∧
  ((∀ (g : Bool) (x y : Nat) (a b : FVal), a = fp32.decode x → b = fp32.decode y →
    minMax g x y = (if a.isNan ∧ b.isNan then 0x7FC00000 else if a.isNan then y else if b.isNan then x
      else if a.isZero ∧ b.isZero then (if (a.isNeg = true ∧ b.isNeg = false) ↔ g = true then y else x)
      else if a.lt b = true ↔ g = true then y else x, if a.isSnan ∨ b.isSnan then fNV else 0)) ∧
  (∀ (x d : Nat), x < 2 ^ 32 → d < 2 ^ 32 →
    vfcvtCode 0 d x = fp32.round (ofInt (BitVec.ofNat 32 x).toInt) ∧ vfcvtCode 1 d x = fp32.round (ofInt x) ∧
    (∀ k fl, (fp32.decode x).toInt (-2 ^ 31) (2 ^ 31 - 1) = (k, fl) → vfcvtCode 2 d x = ((BitVec.ofInt 32 k).toNat, fl)) ∧
    (∀ k fl, (fp32.decode x).toInt 0 (2 ^ 32 - 1) = (k, fl) → vfcvtCode 3 d x = ((BitVec.ofInt 32 k).toNat, fl)) ∧
    (∀ c fl, bf16.round (fp32.decode x) = (c, fl) →
      vfcvtCode 4 d x = (d / 65536 * 65536 + c, fl) ∧ vfcvtCode 5 d x = (c * 65536 + d % 65536, fl)) ∧
    (∀ c fl, fp16.round (fp32.decode x) = (c, fl) →
      vfcvtCode 8 d x = (d / 65536 * 65536 + c, fl) ∧ vfcvtCode 9 d x = (c * 65536 + d % 65536, fl)) ∧
    vfcvtCode 6 d x = fp32.round (bf16.decode (x % 65536)) ∧ vfcvtCode 7 d x = fp32.round (bf16.decode (x / 65536)) ∧
    vfcvtCode 10 d x = fp32.round (fp16.decode (x % 65536)) ∧ vfcvtCode 11 d x = fp32.round (fp16.decode (x / 65536))) ∧
  ∀ (x : Nat), x < 2 ^ 32 →
    (∀ q, fp32.decode x = .nan q → ∀ f ∈ [rcpC, rsqC, exp2C, log2C], f x = (0x7FC00000, if q then fNV else 0)) ∧
    (fp32.decode x = .inf false → rcpC x = (0, 0) ∧ rsqC x = (0, 0) ∧ exp2C x = (0x7F800000, 0) ∧ log2C x = (0x7F800000, 0)) ∧
    (fp32.decode x = .inf true → rcpC x = (0x80000000, 0) ∧ rsqC x = (0x7FC00000, fNV) ∧ exp2C x = (0, 0) ∧ log2C x = (0x7FC00000, fNV)) ∧
    (∀ neg n e, fp32.decode x = .num neg n e →
      (n = 0 → (∀ f ∈ [rcpC, rsqC], f x = (if neg then 0xFF800000 else 0x7F800000, fDZ)) ∧ exp2C x = (0x3F800000, 0) ∧
        log2C x = (0xFF800000, fDZ)) ∧
      (0 < n → rcpC x = fp32.round (.num neg e n)) ∧
      (0 < n → neg = true → rsqC x = (0x7FC00000, fNV) ∧ log2C x = (0x7FC00000, fNV)) ∧
      (0 < n → neg = false → ∃ a b j m : Nat, fp32.decode (rsqC x).1 = .num false a b ∧ 0 < b ∧ 2 ^ 23 ≤ m ∧ m < 2 ^ 24 ∧
        a * 2 ^ 100 = m * 2 ^ j * b ∧ (2 * m - 1) ^ 2 * 4 ^ j * n ≤ 4 ^ 101 * e ∧ 4 ^ 101 * e ≤ (2 * m + 1) ^ 2 * 4 ^ j * n ∧
        (rsqC x).2 = if m ^ 2 * 4 ^ j * n = 4 ^ 100 * e then 0 else fNX) ∧
      (n % e = 0 → n / e ≤ 400 → exp2C x = fp32.round (if neg then .num false 1 (2 ^ (n / e)) else .num false (2 ^ (n / e)) 1)) ∧
      (neg = false → ∀ k : Nat, (n = 2 ^ k * e → log2C x = fp32.round (ofInt k)) ∧ (e = 2 ^ k * n → log2C x = fp32.round (ofInt (-k))))))

/-- R238: VLANE (OP 0x64) writes l to lane l with B = 0, and 16 b + l with B = 1; its A field is reserved, and the other values of B are
illegal encodings. -/
def Obligations.LaneNumbers : Prop :=
  (∀ (w bay : Nat), bay < 8 → w / 2 ^ 25 % 128 = 0x64 →
    decodeSlot (2 + bay) [w] = if w / 64 % 64 = 0 ∧ w % 64 < 2
      then .ok (.vlane { bay := bay, g := w / 2 ^ 18 % 128, d := w / 2 ^ 12 % 64, a := 0, b := w % 64 }) else .error .illegalField) ∧
  ∀ (o : OpV) (s : State), o.inRange = true →
    (o.b = 0 → Does (.vlane o) s (fun t => WritesV s t o.bay o.d 0 (s.active o.g o.bay) (fun l => BitVec.ofNat 32 l) 0)) ∧
    (o.b = 1 → Does (.vlane o) s (fun t => WritesV s t o.bay o.d 0 (s.active o.g o.bay) (fun l => BitVec.ofNat 32 (16 * o.bay + l)) 0))

/-- R234, R237: a shuffle reads lane B[3:0], or gives 0 where B[5] is 1; counts of predicate bits. R235, R236: reductions and scans of the
sixteen lanes, inactive ones at the identity, by each operation of the table. A reduction adds in four stages of ascending stride; element
l of a scan is the operation of the elements up to l in ascending order, or up to l - 1 in the exclusive form. An integer operation raises
no flag; a float operation whose flags are enabled takes the trap. -/
def Obligations.LanesAcross : Prop :=
  (∀ (o : OpV) (s : State), o.inRange = true →
    Does (.vshuf o) s (fun t => WritesV s t o.bay o.d 0 (s.active o.g o.bay)
      (fun l => if (s.vR o.bay o.b l).getLsbD 5 = true then 0 else s.vR o.bay o.a ((s.vR o.bay o.b l).toNat % 16)) 0) ∧
    (o.b < 3 → Does (.vcntp o) s (fun t => WritesV s t o.bay o.d 0 (s.active o.g o.bay)
      (fun l => BitVec.ofNat 32
        (if o.b = 0 then (List.range l).countP (fun k => (s.pL o.a).getLsbD (16 * o.bay + k))
         else if o.b = 1 then (List.range 16).countP (fun k => (s.pL o.a).getLsbD (16 * o.bay + k))
         else (List.range 128).countP (fun k => (s.pL o.a).getLsbD k))) 0))) ∧
  (∀ (o : OpV) (s : State) (x : Nat → Nat) (op : Nat → Nat → Nat) (id : Nat), o.inRange = true →
    (o.b % 16 = 0 ∧ id = 0 ∧ op = fun a b => (a + b) % 2 ^ 32) ∨
      (o.b % 16 = 1 ∧ id = 0x7FFFFFFF ∧ op = fun a b => if (BitVec.ofNat 32 a).toInt < (BitVec.ofNat 32 b).toInt then a else b) ∨
      (o.b % 16 = 2 ∧ id = 0x80000000 ∧ op = fun a b => if (BitVec.ofNat 32 b).toInt < (BitVec.ofNat 32 a).toInt then a else b) ∨
      (o.b % 16 = 3 ∧ id = 0xFFFFFFFF ∧ op = min) ∨ (o.b % 16 = 4 ∧ id = 0 ∧ op = max) ∨
      (o.b % 16 = 5 ∧ id = 0xFFFFFFFF ∧ op = fun a b => a &&& b) ∨ (o.b % 16 = 6 ∧ id = 0 ∧ op = fun a b => a ||| b) ∨
      (o.b % 16 = 7 ∧ id = 0 ∧ op = fun a b => a ^^^ b) ∨ (o.b % 16 = 8 ∧ id = 0x80000000 ∧ op = fun a b => (fp32.addC a b).1) ∨
      (o.b % 16 = 9 ∧ id = 0x7F800000 ∧ op = fun a b => (minMax false a b).1) ∨
      (o.b % 16 = 10 ∧ id = 0xFF800000 ∧ op = fun a b => (minMax true a b).1) →
    (∀ l, x l = if s.active o.g o.bay l = true then (s.vR o.bay o.a l).toNat else id) →
    (∀ r, o.b < 16 →
      r = op (op (op (op (x 0) (x 1)) (op (x 2) (x 3))) (op (op (x 4) (x 5)) (op (x 6) (x 7))))
            (op (op (op (x 8) (x 9)) (op (x 10) (x 11))) (op (op (x 12) (x 13)) (op (x 14) (x 15)))) →
      ∃ f, (o.b < 8 → f = 0) ∧
        (f &&& s.rs.trapen = 0 → Does (.vred o) s (fun t =>
          WritesV s t o.bay o.d 0 (s.active o.g o.bay) (fun _ => BitVec.ofNat 32 r) f)) ∧
        (f &&& s.rs.trapen ≠ 0 → Does (.vred o) s (fun t => t = s.raise (arithTrap f)))) ∧
    ∀ p : Nat → Nat, o.b < 32 → p 0 = op id (x 0) → (∀ l, p (l + 1) = op (p l) (x (l + 1))) →
      ∃ f, (o.b % 16 < 8 → f = 0) ∧
        (f &&& s.rs.trapen = 0 → Does (.vscan o) s (fun t => WritesV s t o.bay o.d 0 (s.active o.g o.bay)
          (fun l => BitVec.ofNat 32 (if o.b < 16 then p l else if l = 0 then id else p (l - 1))) f)) ∧
        (f &&& s.rs.trapen ≠ 0 → Does (.vscan o) s (fun t => t = s.raise (arithTrap f))))

/-- R187, R189: LDX reads the little-endian bytes of the team's X buffer at an aligned address of a pane the team may use; STX writes them
and leaves the pane's descriptor and every other byte. A pane outside the quota takes trap 0x0C, one whose shutter is not T trap 0x06,
where no incomplete command but the ring engine's names it, and else the access waits (R110); an address that is not aligned takes trap
0x0A; of two traps the first of these is taken. R231, R233: VLD loads the active lanes of a row of X and takes the pane's tag; VST stores
them and gives the pane the register's tag; their quota, shutter and alignment traps are those of LDX and STX. R232, R233: VLDG gathers a
word for each active lane, with tag 0x000; VSTS scatters, the highest lane last; each active lane has the traps of LDX and STX. -/
def Obligations.ScratchpadAccesses : Prop :=
  (∀ (o : OpL) (s : State) (ea n : Nat), s.pS o.g = true → o.b < 7 → n = 2 ^ (o.b / 2) →
    ea = (BitVec.ofInt 64 ((s.aR o.a).toInt + (BitVec.ofNat 32 o.imm).toInt)).toNat →
    (∀ i w, (i = .ldx o ∧ w = false) ∨ (i = .stx o ∧ w = true) → XChecked i s [ea] [ea] n w) ∧
    (ea % n = 0 → ea < 4194304 → PaneFree s (ea / 4096) false →
      Does (.ldx o) s (fun t => WritesA s t o.d
        (if o.b % 2 = 0 then (BitVec.ofNat (8 * n) (littleEndian (fun i => xByte s.rt (ea + i)) n)).signExtend 64
         else BitVec.ofNat 64 (littleEndian (fun i => xByte s.rt (ea + i)) n)) 0)) ∧
    (ea % n = 0 → ea < 4194304 → PaneFree s (ea / 4096) true →
      Does (.stx o) s (fun t => OnlyTeam s t ∧ { t.tm with pane := s.tm.pane } = s.tm ∧
        ∀ j, NMap.get 0 t.tm.pane j = if byteKey 2 ea ≤ j ∧ j < byteKey 2 ea + n
          then BitVec.ofNat 8 ((s.aR o.d).toNat / 256 ^ (j - byteKey 2 ea)) else NMap.get 0 s.tm.pane j))) ∧
  (∀ (o : OpV) (s : State) (ea : Nat), o.inRange = true → s.anyActive o.g o.bay = true →
    ea = s.addr 0 (((s.aR o.a).toNat + 64 * o.b) % 2 ^ 64) →
    (∀ i w, (i = .vld o ∧ w = false) ∨ (i = .vst o ∧ w = true) → XChecked i s
      (((List.range 16).filter (s.active o.g o.bay)).map (fun l => (ea + 4 * l) % 2 ^ 64)) [ea] 64 w) ∧
    (ea % 64 = 0 → ea < 4194304 → PaneFree s (ea / 4096) false →
      Does (.vld o) s (fun t => WritesV s t o.bay o.d (dTag (NMap.get 0 s.rt.desc (1056 + ea / 4096))) (s.active o.g o.bay)
        (fun l => BitVec.ofNat 32 (littleEndian (fun i => xByte s.rt (ea + 4 * l + i)) 4)) 0)) ∧
    (ea % 64 = 0 → ea < 4194304 → PaneFree s (ea / 4096) true →
      Does (.vst o) s (fun t => OnlyTeam s t ∧ { t.tm with pane := s.tm.pane, desc := s.tm.desc } = s.tm ∧
        (∀ l i, l < 16 → i < 4 → NMap.get 0 t.tm.pane (byteKey 2 (ea + 4 * l + i)) =
          if s.active o.g o.bay l = true then BitVec.ofNat 8 ((s.vR o.bay o.d l).toNat / 256 ^ i)
          else NMap.get 0 s.tm.pane (byteKey 2 (ea + 4 * l + i))) ∧
        (∀ j, j < byteKey 2 ea ∨ byteKey 2 ea + 64 ≤ j → NMap.get 0 t.tm.pane j = NMap.get 0 s.tm.pane j) ∧
        ∀ k, NMap.get 0 t.tm.desc k = if k = 1056 + ea / 4096
          then mkDesc (dFmt (NMap.get 0 s.tm.desc k)) (dSgeo (NMap.get 0 s.tm.desc k)) (s.vTagR o.bay o.d) (dCb (NMap.get 0 s.tm.desc k))
          else NMap.get 0 s.tm.desc k))) ∧
  (∀ (o : OpV) (s : State) (ea : Nat → Nat), o.inRange = true →
    (∀ l, ea l = (s.addr 0 (s.aR o.b).toNat + (s.vR o.bay o.a l).toNat) % 2 ^ 64) →
    (∀ i w as, (i = .vldg o ∧ w = false) ∨ (i = .vsts o ∧ w = true) → as = ((List.range 16).filter (s.active o.g o.bay)).map ea →
      XChecked i s as as 4 w) ∧
    ((∀ l, l < 16 → s.active o.g o.bay l = true → ea l % 4 = 0 ∧ ea l < 4194304 ∧ PaneFree s (ea l / 4096) false) →
      Does (.vldg o) s (fun t => WritesV s t o.bay o.d 0 (s.active o.g o.bay)
        (fun l => BitVec.ofNat 32 (littleEndian (fun i => xByte s.rt (ea l + i)) 4)) 0)) ∧
    ((∀ l, l < 16 → s.active o.g o.bay l = true → ea l % 4 = 0 ∧ ea l < 4194304 ∧ PaneFree s (ea l / 4096) true) →
      Does (.vsts o) s (fun t => OnlyTeam s t ∧ { t.tm with pane := s.tm.pane } = s.tm ∧
        (∀ l i, l < 16 → i < 4 → s.active o.g o.bay l = true →
          (∀ m, l < m → m < 16 → s.active o.g o.bay m = true → ea m ≠ ea l) →
          NMap.get 0 t.tm.pane (byteKey 2 (ea l + i)) = BitVec.ofNat 8 ((s.vR o.bay o.d l).toNat / 256 ^ i)) ∧
        ∀ j, (∀ l, l < 16 → s.active o.g o.bay l = true → j < byteKey 2 (ea l) ∨ byteKey 2 (ea l) + 4 ≤ j) →
          NMap.get 0 t.tm.pane j = NMap.get 0 s.tm.pane j)))

/-- R226 to R230: VNRW and VWDN take the trap of the first check of the descriptor that fails, or wait for a pane; where every check
passes, VNRW writes the code stream of the block to the lanes from DOFF on whose guard bit is 1, and with SMODE 1 the scale to its slot,
and VWDN the wide elements; the registers written take TAG and 0x000; flags that are enabled take the trap and nothing is written. R49,
R52 to R55, R60 to R62: the code values of the narrow formats, and what a value is encoded to: FP32, BF16, FP16 and F8b by the nearest
code, F8a and I8 saturated, C4 by the nearest entry of its codebook. R59, R497: the scale of a block, its elements under a computed scale,
and the product of a code value and a scale. R64, R66 to R69: a stage of a rotation forms the sums and the differences of its pairs; the
rotations of a block are its signs, the stages of ascending stride, and the product with 2^-μ; the inverse applies the signs last; the
integer path saturates −128 and clips; the signs come from the generator. R228, R229: VNRW rotates its block where its tag has a BCODE and
encodes it under the scale that SMODE selects; VWDN decodes its codes under theirs and changes the rotation where the tags differ. The tag
that VNRW names is kept with its SEED also where BCODE is 0 (log 98). -/
def Obligations.NarrowAndWiden : Prop :=
  ((∀ (o : OpV) (s : State) (c : Nat) (r : List Nat × Nat × Flags) (n : Nat) (checks : List Check), o.inRange = true →
    s.anyActive o.g o.bay = true → (s.aR o.b).toNat = c → checks = s.convCheck c (badFields c o.a o.d [cdTag c]) →
    (∀ e, firstTrap checks = some e → Does (.vnrw o) s (fun t => t = s.raise e)) ∧
    (∀ w, firstTrap checks = none → firstWait checks = some w → Does (.vnrw o) s (fun t => t = s.block w)) ∧
    (firstTrap checks = none → firstWait checks = none →
      s.narrowBlock c ((s.rowsFrom o.bay o.a (wideRegs c)).map fp32.decode) = r → n = (bytesOf (cdFmt c) r.1).length →
      (r.2.2 &&& s.rs.trapen ≠ 0 → Does (.vnrw o) s (fun t => t = s.raise (arithTrap r.2.2))) ∧
      (r.2.2 &&& s.rs.trapen = 0 → ∀ written : Nat → Nat → Prop,
        (∀ v l, written v l ↔ s.active o.g o.bay l = true ∧ 16 * o.d + cdDoff c ≤ 16 * v + l ∧
          16 * v + l < 16 * o.d + cdDoff c + n / 4) →
        Does (.vnrw o) s (fun t => OnlyStrands { s with teams := t.teams } t ∧ (∀ k, k ≠ s.cur → t.strand k = s.strand k) ∧
          { t.st with v := s.st.v, vtag := s.st.vtag, flags := s.st.flags } = s.st ∧ t.st.flags = s.st.flags ||| r.2.2 ∧
          (∀ v l, v < 64 → l < 16 → (written v l → laneNow t o.bay v l = BitVec.ofNat 32 (littleEndian
              (fun i => (bytesOf (cdFmt c) r.1).getD (4 * (16 * v + l - 16 * o.d - cdDoff c) + i) 0) 4)) ∧
            (¬ written v l → laneNow t o.bay v l = laneNow s o.bay v l)) ∧
          (∀ b v l, v < 64 → l < 16 → b ≠ o.bay → laneNow t b v l = laneNow s b v l ∧ tagNow t b v = tagNow s b v) ∧
          (∀ v, v < 64 → ((∃ l, l < 16 ∧ written v l) → tagNow t o.bay v = cdTag c) ∧
            ((∀ l, l < 16 → ¬ written v l) → tagNow t o.bay v = tagNow s o.bay v)) ∧
          (cdSmode c = 1 → (∃ v l, v < 64 ∧ l < 16 ∧ written v l) →
            t.teams = (s.setTm (fun T => T.setMargin (paneItem 2 (cdSpane c)) (2 * cdSidx c) (leBytes 2 r.2.1))).teams) ∧
          ((cdSmode c ≠ 1 ∨ ∀ v l, v < 64 → l < 16 → ¬ written v l) → t.teams = s.teams))))) ∧
  ∀ (o : OpV) (s : State) (c : Nat) (r : List FVal × Flags) (checks : List Check), o.inRange = true → s.anyActive o.g o.bay = true →
    (s.aR o.b).toNat = c → checks = s.convCheck c (badFields c o.d o.a [s.vTagR o.bay o.a, cdWtag c] || cdSmode c = 1) →
    (∀ e, firstTrap checks = some e → Does (.vwdn o) s (fun t => t = s.raise e)) ∧
    (∀ w, firstTrap checks = none → firstWait checks = some w → Does (.vwdn o) s (fun t => t = s.block w)) ∧
    (firstTrap checks = none → firstWait checks = none →
      s.widenBlock c (s.vTagR o.bay o.a)
        (elemsOf (cdFmt c) (((((s.rowsFrom o.bay o.a (codeRegs c)).map (leBytes 4)).flatten).drop (4 * cdDoff c)).take (cdBytes c))) = r →
      (r.2 &&& s.rs.trapen ≠ 0 → Does (.vwdn o) s (fun t => t = s.raise (arithTrap r.2))) ∧
      (r.2 &&& s.rs.trapen = 0 → Does (.vwdn o) s (fun t =>
        OnlyStrand s t ∧ { t.st with v := s.st.v, vtag := s.st.vtag, flags := s.st.flags } = s.st ∧ t.st.flags = s.st.flags ||| r.2 ∧
        (∀ v l, v < 64 → l < 16 → laneNow t o.bay v l =
          if s.active o.g o.bay l = true ∧ 16 * o.d ≤ 16 * v + l ∧ 16 * v + l < 16 * o.d + r.1.length
          then BitVec.ofNat 32 (fp32.round (r.1.getD (16 * v + l - 16 * o.d) (.nan false))).1 else laneNow s o.bay v l) ∧
        (∀ b v l, v < 64 → l < 16 → b ≠ o.bay → laneNow t b v l = laneNow s b v l ∧ tagNow t b v = tagNow s b v) ∧
        ∀ v, v < 64 → tagNow t o.bay v = if o.d ≤ v ∧ v < o.d + r.1.length / 16 then 0 else tagNow s o.bay v)))) ∧
  ((∀ (f : FFormat) (n d : Nat) (neg : Bool), f ∈ [fp32, bf16, fp16, f8b] → 0 < d →
    (∀ q, f.round (.nan q) = (f.cnan, if q then fNV else 0)) ∧ f.round (.inf neg) = ((if neg then f.signBit else 0) + f.inf, 0) ∧
    f.round (.num neg 0 d) = (if neg then f.signBit else 0, 0) ∧
    (0 < n → ∃ q, NearestCode f.mb (f.bias - 1 + f.mb) f.inf (ratOf (.num false n d)) q ∧
      (q = f.inf → f.round (.num neg n d) = ((if neg then f.signBit else 0) + f.inf, fOF ||| fNX)) ∧
      (q < f.inf → f.round (.num neg n d) = ((if neg then f.signBit else 0) + q,
        if ratOf (.num false n d) * 2 ^ (f.bias - 1 + f.mb) = gridOf f.mb q then 0 else if q < 2 ^ f.mb then fNX ||| fUF else fNX)))) ∧
  (∀ (s e m : Nat) (book : List Nat), s < 2 → (e < 16 → m < 8 → codeValue 4 book (128 * s + 8 * e + m) =
      if s = 1 ∧ e = 0 ∧ m = 0 then .nan false else finiteVal (s == 1) e m 3 7) ∧
    (e < 32 → m < 4 → codeValue 5 book (128 * s + 4 * e + m) =
      if e = 31 then (if m = 0 then .inf (s == 1) else .nan (decide (m < 2))) else finiteVal (s == 1) e m 2 15)) ∧
  (∀ (neg : Bool) (e m mb b : Nat), 0 < b → ∃ n d, finiteVal neg e m mb b = .num neg n d ∧ 0 < d ∧
    (m < 2 ^ mb → ratOf (.num false n d) * 2 ^ (b - 1 + mb) = gridOf mb (e * 2 ^ mb + m))) ∧
  (∀ (c : Nat) (book : List Nat), codeValue 6 book c = ofInt (BitVec.ofNat 8 c).toInt ∧ codeValue 7 book c = bf16.decode (book.getD (c % 16) 0)) ∧
  (∀ (n d : Nat) (neg : Bool), 0 < d →
    (∀ q, encodeF8a (.nan q) = (0x80, if q then fNV else 0)) ∧ encodeF8a (.inf neg) = (if neg then 0xFF else 0x7F, fSAT ||| fNX) ∧
    encodeF8a (.num neg 0 d) = (0, 0) ∧ (480 * d < n → encodeF8a (.num neg n d) = (if neg then 0xFF else 0x7F, fSAT ||| fNX)) ∧
    (0 < n → n ≤ 480 * d → ∃ q, NearestCode 3 9 127 (ratOf (.num false n d)) q ∧
      encodeF8a (.num neg n d) = (if q = 0 then 0 else if neg then 128 + q else q,
        if ratOf (.num false n d) * 2 ^ 9 = gridOf 3 q then 0 else if q < 8 then fNX ||| fUF else fNX))) ∧
  (∀ (n d : Nat) (neg : Bool), 0 < d →
    (∀ q, encodeI8 (.nan q) = (0, fNV)) ∧ encodeI8 (.inf neg) = (if neg then 0x81 else 0x7F, fSAT ||| fNX) ∧
    ∃ k, 2 * n ≤ (2 * k + 1) * d ∧ (2 * k * d ≤ 2 * n + d) ∧ (2 * n = (2 * k + 1) * d ∨ 2 * k * d = 2 * n + d → k % 2 = 0) ∧
      (k ≤ 127 → encodeI8 (.num neg n d) = (if neg then (256 - k) % 256 else k, if n = k * d then 0 else fNX)) ∧
      (127 < k → encodeI8 (.num neg n d) = (if neg then 0x81 else 0x7F, fSAT ||| fNX))) ∧
  ∀ (book : List Nat) (entry : Nat → FVal), book.length = 16 → (∀ j, entry j = bf16.decode (book.getD j 0)) →
    ((∀ j, j < 16 → (entry j).finite = false) → ∀ v, encodeC4 book v = (0, fNV)) ∧
    ((∃ j, j < 16 ∧ (entry j).finite = true) →
      (∀ q, encodeC4 book (.nan q) = (0, fNV)) ∧
      (∀ neg : Bool, ∃ i, i < 16 ∧ (entry i).finite = true ∧ encodeC4 book (.inf neg) = (i, fSAT ||| fNX) ∧
        ∀ j, j < 16 → (entry j).finite = true → (if neg then ratOf (entry i) ≤ ratOf (entry j) else ratOf (entry j) ≤ ratOf (entry i)) ∧
          (ratOf (entry j) = ratOf (entry i) → i ≤ j)) ∧
      ∀ (neg : Bool) (n d : Nat), 0 < d → ∃ i, i < 16 ∧ (entry i).finite = true ∧
        encodeC4 book (.num neg n d) = (i, if ratOf (entry i) = ratOf (.num neg n d) then 0 else fNX) ∧
        ∀ j, j < 16 → (entry j).finite = true → (ratOf (.num neg n d) - ratOf (entry i)) ^ 2 ≤ (ratOf (.num neg n d) - ratOf (entry j)) ^ 2 ∧
          ((ratOf (.num neg n d) - ratOf (entry i)) ^ 2 = (ratOf (.num neg n d) - ratOf (entry j)) ^ 2 → i ≤ j))) ∧
  ((∀ (fmt : Nat) (book : List Nat) (l : List FVal) (m a : Rat), 4 ≤ fmt → fmt ≤ 7 → (∀ s n d, FVal.num s n d ∈ l → 0 < d) →
    (fmt = 4 → m = 480) → (fmt = 5 → m = 57344) → (fmt = 6 → m = 127) →
    (fmt = 7 → book.length = 16 ∧ LargestMagnitude (book.map bf16.decode) m) → LargestMagnitude l a →
    (m = 0 → blockScale fmt book l = (0x3F80, 0)) ∧ (m ≠ 0 → a = 0 → blockScale fmt book l = (0, 0)) ∧
    (m ≠ 0 → a ≠ 0 → ∀ n d c f, 0 < d → ratOf (.num false n d) = a / m → bf16.round (.num false n d) = (c, f) →
      blockScale fmt book l = if c = 0 then (1, f ||| fUF) else (c, f))) ∧
  (∀ (fmt sc : Nat) (book : List Nat) (s t : Bool) (n d p q : Nat), bf16.decode sc = .num t p q →
    (p = 0 → encodeScaled fmt book sc (.num s n d) = encodeElem fmt book (.num false 0 1)) ∧
    (p ≠ 0 → encodeScaled fmt book sc (.num s n d) = encodeElem fmt book (.num (s ^^ t) (n * q) (d * p))) ∧
    encodeScaled fmt book sc (.inf s) = encodeElem fmt book (.inf s) ∧ encodeScaled fmt book sc (.nan s) = encodeElem fmt book (.nan s)) ∧
  ∀ (fmt sc c : Nat) (book : List Nat) (v w : FVal), 4 ≤ fmt → fmt ≤ 7 → v = codeValue fmt book c → w = bf16.decode sc →
    (∀ s n d t p q, v = .num s n d → w = .num t p q → decodeElem fmt book sc c = (.num (s ^^ t) (n * p) (d * q), 0)) ∧
    (∀ s t p q, v = .inf s → w = .num t p q → decodeElem fmt book sc c = (.inf (s ^^ t), 0)) ∧
    (∀ s t, v = .inf s → w = .inf t → decodeElem fmt book sc c = (.inf (s ^^ t), 0)) ∧
    (∀ s n d t, v = .num s n d → w = .inf t → decodeElem fmt book sc c = if n = 0 then (.nan false, fNV) else (.inf (s ^^ t), 0)) ∧
    (v.isNan = true ∨ w.isNan = true → decodeElem fmt book sc c = (.nan false, if v.isSnan = true ∨ w.isSnan = true then fNV else 0))) ∧
  ((∀ (α : Type) (add sub : α → α → α × Flags) (h m : Nat) (l : List α) (z : α), 0 < h → l.length = 2 * h * m →
    (stage add sub h l).1.length = l.length ∧
    (∀ i, i < l.length → i / h % 2 = 0 →
      (stage add sub h l).1.getD i z = (add (l.getD i z) (l.getD (i + h) z)).1 ∧
      (stage add sub h l).1.getD (i + h) z = (sub (l.getD i z) (l.getD (i + h) z)).1) ∧
    ∀ b, (stage add sub h l).2.getLsbD b = true ↔ ∃ i, i < l.length ∧ i / h % 2 = 0 ∧
      ((add (l.getD i z) (l.getD (i + h) z)).2.getLsbD b = true ∨ (sub (l.getD i z) (l.getD (i + h) z)).2.getLsbD b = true)) ∧
  (∀ (α : Type) (add sub : α → α → α × Flags) (h : Nat) (l : List α), stages add sub 0 h l = (l, 0) ∧
    ∀ n, stages add sub (n + 1) h l = ((stages add sub n (2 * h) (stage add sub h l).1).1,
      (stage add sub h l).2 ||| (stages add sub n (2 * h) (stage add sub h l).1).2)) ∧
  (∀ (sg : List Bool) (l : List FVal) (mu : Nat) (fadd fsub : FVal → FVal → FVal × Flags), mu ∈ [2, 3, 4] → sg.length = 4 ^ mu → l.length = 4 ^ mu →
    (∀ a b, fadd a b = (fp32.decode (fp32.result (a.add b)).1, (fp32.result (a.add b)).2)) →
    (∀ a b, fsub a b = (fp32.decode (fp32.result (a.sub b)).1, (fp32.result (a.sub b)).2)) →
    (∀ y, y = (stages fadd fsub (2 * mu) 1 ((sg.zip l).map (fun p => if p.1 then p.2.neg else p.2))).1 →
      (rotateBlock sg l).1 = y.map (fun v => fp32.decode (fp32.result (v.mul (.num false 1 (2 ^ mu)))).1)) ∧
    ∀ y, y = (stages fadd fsub (2 * mu) 1 l).1 → (unrotateBlock sg l).1 =
      (sg.zip (y.map (fun v => fp32.decode (fp32.result (v.mul (.num false 1 (2 ^ mu)))).1))).map (fun p => if p.1 then p.2.neg else p.2)) ∧
  (∀ (sg : List Bool) (l : List Nat) (mu : Nat) (y : List Int), mu ∈ [2, 3, 4] → sg.length = 4 ^ mu → l.length = 4 ^ mu →
    y = (stages (fun a b => (a + b, 0)) (fun a b => (a - b, 0)) (2 * mu) 1 ((sg.zip l).map (fun p =>
      (if p.1 then -1 else 1) * (if p.2 % 256 = 128 then -127 else (BitVec.ofNat 8 p.2).toInt)))).1 →
    (rotateI8 sg l).1.length = 4 ^ mu ∧
    (∀ i, i < 4 ^ mu → ∃ k : Int, 2 * (y.getD i 0) ≤ (2 * k + 1) * 2 ^ mu ∧ (2 * k - 1) * 2 ^ mu ≤ 2 * (y.getD i 0) ∧
      (2 * (y.getD i 0) = (2 * k + 1) * 2 ^ mu ∨ (2 * k - 1) * 2 ^ mu = 2 * (y.getD i 0) → k % 2 = 0) ∧
      (rotateI8 sg l).1.getD i 0 = (BitVec.ofInt 8 (max (-127) (min 127 k))).toNat) ∧
    ((rotateI8 sg l).2 &&& fSAT ≠ 0 ↔ ∃ q ∈ l, q % 256 = 128) ∧
    ((rotateI8 sg l).2 &&& fNX ≠ 0 ↔ ∃ v ∈ y, v % 2 ^ mu ≠ 0)) ∧
  ∀ (s : State) (t : Nat) (g : Word) (h : Nat → Word), g = NMap.get 0 s.seeds (t / 4 % 256) ^^^ (BitVec.ofNat 64 (t % 4) <<< 60) →
    h 0 = (if g = 0 then 0x9E3779B97F4A7C15 else g) →
    (∀ i a b, a = h i ^^^ (h i <<< 13) → b = a ^^^ (a >>> 7) → h (i + 1) = b ^^^ (b <<< 17)) →
    s.signs t = (List.range (if t % 4 = 0 then 0 else 4 ^ (t % 4 + 1))).map (fun i => (h (i + 1)).getLsbD 63)) ∧
  ((∀ (s : State) (c : Nat) (x y : List FVal) (f g : Flags) (sc : Nat), x.length = cdN c → 0 < cdSpan c →
    (cdTag c % 4 = 0 → (y, f) = (x, 0)) → (cdTag c % 4 ≠ 0 → cdTag c % 4 = cdSpan c ∧ (y, f) = rotateBlock (s.signs (cdTag c)) x) →
    (cdSmode c = 0 → (s.narrowBlock c x).1 = y.map (fun v => (encodeElem (cdFmt c) (s.codebook (cdCb c)) v).1)) ∧
    (cdSmode c = 1 → blockScale (cdFmt c) (s.codebook (cdCb c)) y = (sc, g) →
      (s.narrowBlock c x).1 = y.map (fun v => (encodeScaled (cdFmt c) (s.codebook (cdCb c)) sc v).1) ∧ (s.narrowBlock c x).2.1 = sc ∧
      ∀ b, (s.narrowBlock c x).2.2.getLsbD b = true ↔ f.getLsbD b = true ∨ g.getLsbD b = true ∨
        ∃ v ∈ y, (encodeScaled (cdFmt c) (s.codebook (cdCb c)) sc v).2.getLsbD b = true) ∧
    (cdSmode c = 2 → sc = littleEndian (fun i => NMap.get 0 s.rt.margin (512 * (1056 + cdSpane c) + 2 * cdSidx c + i)) 2 →
      (s.narrowBlock c x).1 = y.map (fun v => (encodeElem (cdFmt c) (s.codebook (cdCb c))
        (if (bf16.decode sc).isZero = true ∧ v.finite = true then .num false 0 1 else (v.div (bf16.decode sc)).1)).1))) ∧
  ∀ (s : State) (c u : Nat) (codes : List Nat) (sc : Nat) (x : List FVal), codes.length = cdN c → 0 < cdSpan c → cdFmt c ∈ [4, 5, 6, 7] →
    (cdSmode c = 0 → sc = 0x3F80) →
    (cdSmode c = 2 → sc = littleEndian (fun i => NMap.get 0 s.rt.margin (512 * (1056 + cdSpane c) + 2 * cdSidx c + i)) 2) → cdSmode c ≠ 1 →
    x = codes.map (fun k => fp32.decode (fp32.result (decodeElem (cdFmt c) (s.codebook (cdCb c)) sc k)).1) →
    (u % 4 = 0 ∨ u % 4 = cdSpan c) → (cdWtag c % 4 = 0 ∨ cdWtag c % 4 = cdSpan c) →
    ((u % 4 = 0 ∧ cdWtag c % 4 = 0) ∨ u % 1024 = cdWtag c → (s.widenBlock c u codes).1 = x) ∧
    (¬ ((u % 4 = 0 ∧ cdWtag c % 4 = 0) ∨ u % 1024 = cdWtag c) → ∀ y,
      y = (if u % 4 = 0 then x else (unrotateBlock (s.signs u) x).1) →
      (s.widenBlock c u codes).1 = if cdWtag c % 4 = 0 then y else (rotateBlock (s.signs (cdWtag c)) y).1))

/-- R155 to R157: PBR writes its bundle's address plus 4 DISP; PBRX starts a transom write of A[55:0] due 2 cycles later; BR sends control
to its target, BRL also writes the address of the next bundle to b7; a target that is not a multiple of 4 takes the misaligned-address
trap. -/
def Obligations.Branches : Prop :=
  (∀ (o : OpB) (s : State), s.pS o.g = true →
    Does (.pbr o) s (fun t => OnlyStrand s t ∧
      { t.st with b := s.st.b, bwrite := s.st.bwrite, bfetch := s.st.bfetch } = s.st ∧
      ∀ n, bNow t n = if n = o.k then s.rs.pc + BitVec.ofInt 56 (4 * (BitVec.ofNat 15 o.disp).toInt) else bNow s n)) ∧
  ∀ (o : OpG) (s : State), s.pS o.g = true →
    Does (.pbrx o) s (fun t => OnlyStrand s t ∧
      { t.st with transom := s.st.transom, bwrite := s.st.bwrite, bfetch := s.st.bfetch } = s.st ∧
      t.st.transom = { due := s.cycle + 2, dest := .b o.d true, vals := [(s.aR o.a).toNat % 2 ^ 56] } :: s.st.transom) ∧
    ((s.bR o.a).toNat % 4 = 0 →
      Does (.br o) s (fun t => t.iss = { s.iss with jump := some (s.bR o.a), branch := true } ∧ t.mem = s.mem ∧ t.teams = s.teams ∧
        { t.st with stale := s.st.stale } = s.st) ∧
      Does (.brl o) s (fun t => t.iss = { s.iss with jump := some (s.bR o.a), branch := true } ∧ t.mem = s.mem ∧ t.teams = s.teams ∧
        { t.st with stale := s.st.stale, b := s.st.b, bwrite := s.st.bwrite, bfetch := s.st.bfetch } = s.st ∧
        ∀ n, bNow t n = if n = 7 then s.rs.pc + BitVec.ofNat 56 s.iss.bytes else bNow s n)) ∧
    ((s.bR o.a).toNat % 4 ≠ 0 → ∀ i ∈ [Instr.br o, Instr.brl o],
      Does i s (fun t => t = s.raise { prio := 80, code := 0x0A, tinfo := BitVec.ofNat 64 (s.bR o.a).toNat }))

/-- R160, R161, R164 to R166: a loop of n trips, n > 0, pushes a level that starts at the next bundle and ends at the bundle 4 END bytes
on; a zero count goes on at the bundle after the body, whose length its header gives; a full stack, a body that ends before it starts and
a loop instruction in the last bundle of an armed body trap. LEXIT pops the levels that it names, of those not frozen, and goes on at the
bundle after the body of the last of them; with no level armed it does nothing. R162, R163: at the end of the body of the innermost loop
the count goes down and control returns to its start, or the level pops and the test passes to the next level; a taken branch pops the
levels whose body its target leaves. R130, R133, R157, R162, R163: a taken branch goes to its target and pops the levels whose body the
target leaves; a zero-trip loop and LEXIT go on where they say and pop no level for it. Otherwise the next repetition of a bundle with
repetitions left keeps the program counter, and after the last one control goes to the start of a loop that goes on or to the next bundle,
and levels that it has passed are popped. Nothing else of the strand changes. -/
def Obligations.HardwareLoops : Prop :=
  ((∀ (o : OpLp) (s : State) (i : Instr) (n : Nat) (start last : VA), s.pS o.g = true →
    (i = .loop o ∧ n = (s.aR o.cnt).toNat ∨ i = .loopi o ∧ n = o.cnt ∨ i = .loopm o ∧ n = (NMap.get 0 s.rs.mbx o.cnt).toNat) →
    start = s.rs.pc + BitVec.ofNat 56 s.iss.bytes → last = s.rs.pc + BitVec.ofNat 56 (4 * o.last) →
    ((∀ l ∈ s.rs.loops, l.frozen = false → l.last ≠ s.rs.pc) → start.toNat ≤ last.toNat →
      (0 < n → s.rs.loops.length < 4 → Does i s (fun t => StrandIs s t { s.st with
        loops := { start := start, last := last, remaining := n, frozen := false } :: s.st.loops })) ∧
      (0 < n → 4 ≤ s.rs.loops.length → Does i s (fun t => t = s.raise { prio := 50, code := 0x0B, tinfo := 4 })) ∧
      (∀ s' w m, n = 0 → s.fetchWord s.cur last.toNat s.st.irenew = (s', .ok w) →
        (w = paddingWord ∧ m = 4 ∨ w ≠ paddingWord ∧ (getHeader w).kind = 0 ∧ m = 4 * (1 + (getHeader w).body)) →
        Does i s (fun t => t = { s' with iss := { s'.iss with jump := some (BitVec.ofNat 56 (last.toNat + m)), branch := false } })) ∧
      (∀ s' w, n = 0 → s.fetchWord s.cur last.toNat s.st.irenew = (s', .ok w) → w ≠ paddingWord → (getHeader w).kind ≠ 0 →
        Does i s (fun t => t = s.raise { prio := 10, code := 0x01, tinfo := 16 })) ∧
      (∀ s' c, n = 0 → s.fetchWord s.cur last.toNat s.st.irenew = (s', .error c) → (c = 0x40 ∨ c = 0x41) →
        Does i s (fun t => t = s.raise { prio := if c = 0x41 then 101 else 100, code := c, tinfo := BitVec.ofNat 64 last.toNat }))) ∧
    ((∃ l ∈ s.rs.loops, l.frozen = false ∧ l.last = s.rs.pc) ∨ last.toNat < start.toNat →
      Does i s (fun t => t = s.raise { prio := 10, code := 0x01, tinfo := BitVec.ofNat 64 s.iss.word }))) ∧
  ∀ (o : OpN) (s : State), s.pS o.g = true →
    ((∃ l ∈ s.rs.loops, l.frozen = false ∧ l.last = s.rs.pc) →
      Does (.lexit o) s (fun t => t = s.raise { prio := 10, code := 0x01, tinfo := BitVec.ofNat 64 s.iss.word })) ∧
    ((∀ l ∈ s.rs.loops, l.frozen = false → l.last ≠ s.rs.pc) →
      (∀ (l : LoopLevel) (k : Nat), k = min (o.imm + 1) (s.rs.loops.filter (fun x => !x.frozen)).length →
        (s.rs.loops.filter (fun x => !x.frozen))[k - 1]? = some l → ∀ s' w m, s.fetchWord s.cur l.last.toNat s.st.irenew = (s', .ok w) →
        (w = paddingWord ∧ m = 4 ∨ w ≠ paddingWord ∧ (getHeader w).kind = 0 ∧ m = 4 * (1 + (getHeader w).body)) →
        Does (.lexit o) s (fun t => t.mem = s'.mem ∧ { t.st with loops := s'.st.loops } = s'.st ∧ t.st.loops = s'.st.loops.drop k ∧
          t.iss = { s'.iss with jump := some (BitVec.ofNat 56 (l.last.toNat + m)), branch := false })) ∧
      ((∀ l ∈ s.rs.loops, l.frozen = true) → Does (.lexit o) s (fun t => t = s)))) ∧
  ((∀ (pc : VA) (l : LoopLevel) (r : List LoopLevel), l.frozen = false → l.last = pc → 1 < l.remaining →
    endTest pc (l :: r) = ({ l with remaining := l.remaining - 1 } :: r, some l.start)) ∧
  (∀ (pc : VA) (l : LoopLevel) (r : List LoopLevel), l.frozen = false → l.last = pc → l.remaining = 1 →
    endTest pc (l :: r) = endTest pc r) ∧
  (∀ (pc : VA) (l : LoopLevel) (r : List LoopLevel), l.last ≠ pc → endTest pc (l :: r) = (l :: r, none)) ∧
  (∀ (t : VA) (ls : List LoopLevel), (popRange t ls) <:+ ls ∧
    (∀ l r, popRange t ls = l :: r → l.frozen = true ∨ (l.start.toNat ≤ t.toNat ∧ t.toNat ≤ l.last.toNat)) ∧
    ∀ l ∈ ls.take (ls.length - (popRange t ls).length), l.frozen = false ∧ (t.toNat < l.start.toNat ∨ l.last.toNat < t.toNat))) ∧
  (∀ (st : Strand) (q : Issue),
    (∀ a, q.jump = some a → (st.retire q).pc = a ∧ (st.retire q).rep = 0 ∧ (st.retire q).grpPos = 0 ∧
      (st.retire q).loops = if q.branch then popRange a st.loops else st.loops) ∧
    (q.jump = none → st.rep < q.rept → (st.retire q).pc = st.pc ∧ (st.retire q).rep = st.rep + 1 ∧ (st.retire q).loops = st.loops) ∧
    (q.jump = none → q.rept ≤ st.rep → (endTest st.pc st.loops).2 = none →
      (st.retire q).pc = st.pc + BitVec.ofNat 56 q.bytes ∧ (st.retire q).rep = 0 ∧ (st.retire q).loops <:+ (endTest st.pc st.loops).1 ∧
      ∀ l r, (st.retire q).loops = l :: r → l.frozen = true ∨ (st.retire q).pc.toNat ≤ l.last.toNat) ∧
    (q.jump = none → q.rept ≤ st.rep → ∀ a, (endTest st.pc st.loops).2 = some a →
      (st.retire q).pc = a ∧ (st.retire q).rep = 0 ∧ (st.retire q).loops = (endTest st.pc st.loops).1) ∧
    { st.retire q with
      pc := st.pc, rep := st.rep, loops := st.loops, grpPos := st.grpPos, grpChecked := st.grpChecked, lastPc := st.lastPc
      lastRep := st.lastRep, bnd := st.bnd } = st ∧ (st.retire q).lastPc = st.pc ∧ (st.retire q).lastRep = st.rep)

/-- R167 to R170: SLEEP blocks until a later wake cycle; WAITP goes on if an arrival bit of its mask is 1 and else blocks; YIELD keeps the
strand ready and gives the core to the next ready strand at a cost of 4 cycles of a clock that loses none. R117: a SLEEP that ends at or
after a promise whose command has not completed, be it at once or later, takes trap 0x04 with the earliest such promise, after its bundle
has retired. -/
def Obligations.WaitsAndPromises : Prop :=
  ((∀ (o : OpG) (s : State) (wake : Nat), s.pS o.g = true → wake = (if o.b = 1 then min (s.cycle + (s.aR o.a).toNat) (2 ^ 64 - 1) else (s.aR o.a).toNat) →
    (s.cycle < wake → Does (.sleep o) s (fun t => t = s.retire.updStrand s.cur (fun st => { st with run := .blocked (.sleep wake) }))) ∧
    (wake ≤ s.cycle → (∀ c ∈ s.tm.cmds, c.strand = s.cur → ∀ p, c.promise = some p → wake < p) → Does (.sleep o) s (fun t => t = s.retire))) ∧
  (∀ (k wake : Nat) (s : State), (s.strand k).run = .blocked (.sleep wake) → (s.team (teamOf k)).status = .bound →
    (∀ c ∈ (s.team (teamOf k)).cmds, c.strand = k → ∀ p, c.promise = some p → wake < p) →
    Does (.sleepWake k) s (fun t => { t with strands := s.strands, cycle := s.cycle } = s ∧ t.cycle = max s.cycle wake ∧
      (∀ j, j ≠ k → t.strand j = s.strand j) ∧ t.strand k = { s.strand k with run := .ready })) ∧
  ∀ (o : OpN) (s : State), s.pS o.g = true →
    ((∃ m, m < 16 ∧ s.st.arrive.getLsbD m = true ∧ o.imm.testBit m = true) → Does (.waitp o) s (fun t => t = s.retire)) ∧
    ((∀ m, m < 16 → o.imm.testBit m = true → s.st.arrive.getLsbD m = false) →
      Does (.waitp o) s (fun t => t = s.retire.updStrand s.cur (fun st => { st with run := .blocked (.mbx o.imm) }))) ∧
    (∀ k c b e, c = s.coreOf (teamOf s.cur) → (s.slotOrder c s.st.slot).find? (fun k => k != s.cur && s.canIssue k) = some k →
      b = max (s.core c).nextIssue (s.cycle + 1) → (192 ≤ c ∨ ∀ u, b ≤ u → u < b + 5 → s.passes c u = true) → e = b + 4 →
      Does (.yield o) s (fun t => OnlyCores s t ∧ t.core c = { s.core c with slot := some k, nextIssue := e, bundleEnd := e })) ∧
    ((∀ k ∈ s.slotOrder (s.coreOf (teamOf s.cur)) s.st.slot, k = s.cur ∨ s.canIssue k = false) → Does (.yield o) s (fun t => t = s))) ∧
  (∀ (k wake p : Nat) (s : State),
    (∃ c ∈ (s.team (teamOf k)).cmds, c.strand = k ∧ c.promise = some p) → p ≤ wake →
    (∀ c ∈ (s.team (teamOf k)).cmds, c.strand = k → ∀ q, c.promise = some q → p ≤ q) →
    ((s.strand k).run = .blocked (.sleep wake) → (s.team (teamOf k)).status = .bound →
      Does (.sleepWake k) s (fun t => t = (({ s with cycle := max s.cycle wake }).updStrand k (fun st => { st with run := .ready })).takeTrap k
        (if (s.strand k).tmode then (s.strand k).lastPc else (s.strand k).pc) (if (s.strand k).tmode then (s.strand k).lastRep else (s.strand k).rep)
        0x04 (BitVec.ofNat 64 p))) ∧
    ∀ (o : OpG), s.cur = k → s.pS o.g = true →
      wake = (if o.b = 1 then min (s.cycle + (s.aR o.a).toNat) (2 ^ 64 - 1) else (s.aR o.a).toNat) → wake ≤ s.cycle →
      Does (.sleep o) s (fun t => t = s.retire.takeTrap k (if s.st.tmode then s.st.pc else s.retire.st.pc)
        (if s.st.tmode then s.st.rep else s.retire.st.rep) 0x04 (BitVec.ofNat 64 p)))

/-- R169: at a barrier of its team, or of its launch where that is a gang, a strand blocks while some other member has neither arrived nor
ended, or some team of the gang has never been bound; the arrival of the last makes every member that waits there ready and empties the
barrier. In a launch that is no gang `bar.launch` acts as `bar`. Barriers leave memory as it was. R95, R96, R103, R172, R307, R414, R501:
PHASE acts at its scope, which on a supervisor core is .dev for .course. A .sys boundary waits while an access of the strand through a
PCIe window is open, and a supervisor core's while the home slices move. On its first issue it takes the fault of a store of the strand
that faults; else it waits for its publication point, 4 cycles before the end that R307 gives. There it publishes every byte that the
strand has stored and not yet published at the scope, as one element of the order, renews the strand's view, drops its lines of the core
view, and lets no later bundle of the strand issue for 4 cycles; the strand's registers and every other byte stay. That it publishes and
renews at one point is the model's reading (log 52). -/
def Obligations.BarriersAndPhases : Prop :=
  ((∀ (o : OpN) (s : State), s.pS o.g = true → (o.imm = 0 ∨ (s.launch s.tm.launch).gang = false) → s.cur ∈ s.members (teamOf s.cur) →
    ((∃ k ∈ s.members (teamOf s.cur), k ≠ s.cur ∧ k ∉ s.tm.barArr ∧ (s.strand k).run.over = false) →
      Does (.bar o) s (fun t => t.mem = s.mem ∧ t.st = { s.retire.st with run := .blocked (.bar false) } ∧
        t.tm = { s.tm with barArr := s.cur :: s.tm.barArr } ∧ ∀ k, k ≠ s.cur → t.strand k = s.strand k)) ∧
    ((∀ k ∈ s.members (teamOf s.cur), k = s.cur ∨ k ∈ s.tm.barArr ∨ (s.strand k).run.over = true) →
      Does (.bar o) s (fun t => t.mem = s.mem ∧ t.tm = { s.tm with barArr := [] } ∧ t.st = { s.retire.st with run := .ready } ∧
        ∀ k, k ≠ s.cur → t.strand k = if k ∈ s.members (teamOf s.cur) ∧ (s.strand k).run = .blocked (.bar false)
          then { s.strand k with run := .ready } else s.strand k))) ∧
  ∀ (o : OpN) (s : State) (l : Nat) (all : List Nat), s.pS o.g = true → o.imm = 1 → l = s.tm.launch → (s.launch l).gang = true →
    all = ((s.launch l).slots.map s.members).flatten → s.cur ∈ all →
    ((∃ k ∈ all, k ≠ s.cur ∧ k ∉ (s.launch l).barArr ∧ (s.strand k).run.over = false) ∨
        ((s.launch l).hdr.map (·.cores)).getD 0 ≠ (s.launch l).bound →
      Does (.bar o) s (fun t => t.mem = s.mem ∧ t.st = { s.retire.st with run := .blocked (.bar true) } ∧
        t.launch l = { s.launch l with barArr := s.cur :: (s.launch l).barArr } ∧ t.teams = s.teams ∧ ∀ k, k ≠ s.cur → t.strand k = s.strand k)) ∧
    ((∀ k ∈ all, k = s.cur ∨ k ∈ (s.launch l).barArr ∨ (s.strand k).run.over = true) →
        ((s.launch l).hdr.map (·.cores)).getD 0 = (s.launch l).bound →
      Does (.bar o) s (fun t => t.mem = s.mem ∧ t.launch l = { s.launch l with barArr := [] } ∧ t.st = { s.retire.st with run := .ready } ∧
        t.teams = s.teams ∧ ∀ k, k ≠ s.cur → t.strand k = if k ∈ all ∧ (s.strand k).run = .blocked (.bar true)
          then { s.strand k with run := .ready } else s.strand k))) ∧
  (∀ (o : OpN) (s : State) (x n : Nat), s.pS o.g = true → o.imm < 4 →
    x = (if o.imm = 1 ∧ isSupervisor (teamOf s.cur) = true then 2 else o.imm) → n = s.st.sectors x →
    (x = 3 ∧ s.st.pcieOpen = true ∨ s.homesMove = true → Does (.phase o) s (fun t => t = s.block .stall)) ∧
    ((x ≠ 3 ∨ s.st.pcieOpen = false) → s.homesMove = false →
      (∀ u cells b va c fs, s.pubCells s.cur (s.st.toPublish x) = (u, cells, (b, va, c) :: fs) →
        Does (.phase o) s (fun t => t = s.raise (memFault c va))) ∧
      (∀ u cells p, s.pubCells s.cur (s.st.toPublish x) = (u, cells, []) → s.st.bnd = none →
        p = max (max s.cycle s.st.devBy + (if x = 0 then 2 else if x = 1 then 20 + n else 60 + n)) (s.st.reqsDue + 1) →
        Does (.phase o) s (fun t => t = { s with freeN := u.freeN }.block (.until p))) ∧
      (∀ u cells, s.pubCells s.cur (s.st.toPublish x) = (u, cells, []) → s.st.bnd ≠ none →
        Does (.phase o) s (fun t =>
          (∀ a, (∀ c ∈ lastStores cells, c.1 ≠ a) → Memory.read t.mem a = Memory.read u.mem a) ∧
          (∀ c ∈ lastStores cells, (∀ d ∈ lastStores cells, d.1 = c.1 → d.2 = c.2) → Memory.read t.mem c.1 = c.2) ∧
          (cells ≠ [] → ∃ p, t.log = u.log ++ [p] ∧ p.agent = .strand s.cur ∧ p.scope = x ∧ p.atomic = false ∧
            p.cells.map (fun c => (c.1, c.2.2)) = lastStores cells) ∧
          (∀ a w, NMap.get none t.st.stores a = some w → ∃ y, w.scope = some y ∧ x ≤ y) ∧
          (∃ r rest, t.st.renew = r :: rest ∧ r.pos = t.log.length ∧ r.scope = x ∧ r.core = u.coreOf (teamOf s.cur)) ∧
          (2 ≤ x → ∃ r rest, t.st.irenew = r :: rest ∧ r.pos = t.log.length ∧ r.scope = x) ∧
          (∀ l ∈ (t.core (u.coreOf (teamOf s.cur))).view, l.strand ≠ s.cur) ∧
          t.st.notBefore = max u.st.notBefore (s.cycle + 4) ∧ s.cycle + 4 ≤ (t.core (u.coreOf (teamOf s.cur))).bundleEnd ∧
          { t.st with stores := u.st.stores, renew := u.st.renew, irenew := u.st.irenew, notBefore := u.st.notBefore } = u.st ∧
          (∀ k, k ≠ s.cur → t.strand k = u.strand k) ∧ t.teams = u.teams))))

/-- R34, R37, R39, R166: a strand trap of a team with a handler, or on a supervisor core, outside a handler, saves the resume point, the
cause and its detail, freezes the loop levels and goes to the handler; nothing else of the machine changes. R34, R42, R401, R403: a fault
of code 0x40 or more, a trap in a handler (code 0x44) and a trap of a team without a handler (code 0x45) park the strand with its resume
point, and post a record: of kind 0, or 1 for a keystone event, with the code, the original code, TINFO, the resume point, the team's
ASID, launch and place, the cycle and the next sequence number. The record goes to the fault queue where it has room and none waits, with
TAIL one further; else it waits. -/
def Obligations.TrapEntry : Prop :=
  (∀ (s : State) (k code trep : Nat) (tepc : VA) (tinfo : Word), code < 0x40 → (s.strand k).tmode = false →
    ((s.team (teamOf k)).handler ≠ 0 ∨ isSupervisor (teamOf k) = true) →
    OnlyStrands s (s.takeTrap k tepc trep code tinfo) ∧
    (∀ j, j ≠ k → (s.takeTrap k tepc trep code tinfo).strand j = s.strand j) ∧
    (s.takeTrap k tepc trep code tinfo).strand k =
      { s.strand k with
        tepc := tepc, trep := BitVec.ofNat 4 trep, tcause := BitVec.ofNat 8 code, tinfo := tinfo, tmode := true,
        pc := (s.team (teamOf k)).handler, rep := 0, bnd := none, grpPos := 0, grpChecked := false,
        loops := (s.strand k).loops.map (fun l => { l with frozen := true }) }) ∧
  (∀ (s : State) (k code trep : Nat) (tepc : VA) (tinfo : Word) (f : ParkedFault) (t : State),
    (0x40 ≤ code ∧ f = { code := code, tinfo := tinfo, tepc := tepc, trep := trep }) ∨
    (code < 0x40 ∧ (s.strand k).tmode = true ∧ f = { code := 0x44, ocode := code, tinfo := tinfo, tepc := tepc, trep := trep }) ∨
    (code < 0x40 ∧ (s.strand k).tmode = false ∧ (s.team (teamOf k)).handler = 0 ∧ isSupervisor (teamOf k) = false ∧
      f = { code := 0x45, ocode := code, tinfo := tinfo, tepc := tepc, trep := trep }) →
    k ≠ 4 * runtimeTeam → t = s.takeTrap k tepc trep code tinfo →
    t.strand k = { s.strand k with run := .parked, parked := some f, pc := tepc, rep := trep, bnd := none } ∧
    t.teams = s.teams ∧ (f.code < 0x80 → t.ksQueue = s.ksQueue) ∧
    ∃ r : Record, r.kind = (if f.code < 0x80 then 0 else 1) ∧ r.code = f.code ∧ r.ocode = f.ocode ∧ r.tinfo = tinfo.toNat ∧ r.tepc = tepc.toNat ∧
      r.trep = trep ∧ r.asid = (s.team (teamOf k)).asid ∧ r.lh = (s.team (teamOf k)).lh ∧ r.core = (s.team (teamOf k)).idx ∧
      r.strand = k % 4 ∧ r.token = teamOf k % 65536 ∧ r.cycle = s.cycle ∧ r.seq = s.fltSeq + 1 ∧ t.fltSeq = s.fltSeq + 1 ∧
      (s.fltHold = [] ∧ s.fltFull = false → t.fltTail = (s.fltTail + 1) % 2 ^ 32 ∧ t.fltHold = s.fltHold ∧
        ∀ i, i < 64 → Memory.read t.mem (s.fltBase + 64 * (s.fltTail % s.fltSize) + i) = ((r.dwords.map (leBytes 8)).flatten).getD i 0) ∧
      (¬ (s.fltHold = [] ∧ s.fltFull = false) → t.fltTail = s.fltTail ∧ t.fltHold = s.fltHold ++ [r] ∧ t.mem = s.mem))

/-- R38, R166, R207: TRET in a handler of level 0, and SRET in one of level 1 or 2, restore the resume point, end trap mode, drop the
levels pushed in the handler and thaw the others. R38, R174, R207: TRET outside trap mode or in a handler of level 1 or 2 (the model's
reading, log 100), and SRET outside trap mode or on a compute core, take the illegal-opcode trap. R173, R39, R34: TRAP retires and then
takes trap 0x09 with its immediate, resuming after its bundle; in a handler it is a double trap that names its own bundle. R175: EXIT ends
the strand, discards its work range and leaves memory as it was. -/
def Obligations.TrapReturnAndExit : Prop :=
  (∀ (o : OpN) (s : State), s.pS o.g = true → s.rs.tmode = true →
    (∀ i ∈ [Instr.tret o, Instr.sret o], (i = .tret o → s.rs.level = 0) → (i = .sret o → s.rs.level ≠ 0) →
      Does i s (fun t => t.iss = { s.iss with retired := true } ∧ { t with strands := s.strands, iss := s.iss } = s ∧
        (∀ j, j ≠ s.cur → t.strand j = s.strand j) ∧
        t.st = { s.st with tmode := false, pc := s.st.tepc, rep := s.st.trep.toNat, grpPos := 0, grpChecked := false,
                           lastPc := s.st.pc, lastRep := s.st.rep,
                           loops := (s.st.loops.filter (fun l => l.frozen)).map (fun l => { l with frozen := false }) }))) ∧
  (∀ (o : OpN) (s : State), s.pS o.g = true →
    (s.rs.tmode = false ∨ s.rs.level ≠ 0 → Does (.tret o) s (fun t => t = s.raise { prio := 20, code := 0x02, tinfo := 0x0D })) ∧
    (s.rs.tmode = false ∨ s.rs.level = 0 → Does (.sret o) s (fun t => t = s.raise { prio := 20, code := 0x02, tinfo := 0x0E }))) ∧
  (∀ (o : OpN) (s : State), s.pS o.g = true →
    Does (.trap o) s (fun t => t = s.retire.takeTrap s.cur (if s.st.tmode then s.st.pc else s.retire.st.pc)
      (if s.st.tmode then s.st.rep else s.retire.st.rep) 0x09 (BitVec.ofNat 64 o.imm))) ∧
  (∀ (o : OpN) (s : State), s.pS o.g = true →
    Does (.exit o) s (fun t => t.st.run = .exited ∧ t.st.wnext = 0 ∧ t.st.wend = 0 ∧ t.mem = s.mem ∧ t.st.a = s.st.a))

/-- R94, R188: a store to normal or write-combining device memory enters the strand's pending stores and changes no byte of memory; a
store to a device or strongly ordered page of device memory changes its bytes, the lowest first, and no other, and the strand's pending
stores to them come before it (R84). R90: to such a page it waits while an access of the strand through a PCIe window is not performed;
R414: to it, and to bytes that a request of the strand acts on, while the request has not left the core (log 134). Stores to
write-combining pages stay pending until a boundary (log 68), and accesses to device pages wait for those through a PCIe window (log 105),
by the model's reading. -/
def Obligations.GlobalStores : Prop :=
  ∀ (o : OpL) (s s' : State) (ea : Word) (n pa ty leaf : Nat), s.pS o.g = true → (o.b = 0 ∨ o.b = 2 ∨ o.b = 4 ∨ o.b = 6) →
    ea = BitVec.ofInt 64 ((s.aR o.a).toInt + (BitVec.ofNat 32 o.imm).toInt) → n = 2 ^ (o.b / 2) →
    s.globalCheck ea n .write = (s', .ok (pa, ty, leaf)) →
    (s'.st.reqAt pa n = true ∨ 2 ≤ ty ∧ (s'.st.pcieOpen = true ∨ s'.st.reqOpen = true) → Does (.st o) s (fun t => t = s'.block .stall)) ∧
    (targetOf pa = .dram → ty < 2 → s'.st.reqAt pa n = false → Does (.st o) s (fun t => OnlyStrand s' t ∧
      { t.st with stores := s'.st.stores, storeSeq := s'.st.storeSeq } = s'.st ∧ t.st.storeSeq = s'.st.storeSeq + 1 ∧
      ∀ j, NMap.get none t.st.stores j = if ea.toNat ≤ j ∧ j < ea.toNat + n
        then some { val := BitVec.ofNat 8 ((s.aR o.d).toNat / 256 ^ (j - ea.toNat)), start := ea.toNat, scope := none, fresh := true,
                    seq := s'.st.storeSeq }
        else NMap.get none s'.st.stores j)) ∧
    (targetOf pa = .dram → 2 ≤ ty → s'.st.pcieOpen = false → s'.st.reqOpen = false → Does (.st o) s (fun t =>
      { t.st with devDone := s'.st.devDone, stores := s'.st.stores } = s'.st ∧ t.teams = s'.teams ∧
      ∀ a, Memory.read t.mem a = if pa ≤ a ∧ a < pa + n then BitVec.ofNat 8 ((s.aR o.d).toNat / 256 ^ (a - pa))
        else Memory.read s'.mem a))

/-- R188: the checks of a global access, in their order: alignment, bits 63:56, then the page. A check that fails takes its trap with the
address: 0x0A, protection fault 0x41, page fault 0x40. A load waits while an acquiring atomic through a PCIe window is open (R107), and an
access to a device page while an access through a PCIe window is not performed (R90), or to bytes that a request acts on which has not
left the core (R414). R93, R450: a load or store of a PCIe window sends a request, and a store's bytes, to the port; one of the control
window reads or writes the register there. The waits for a PCIe window and for the moving home slices are the model's reading (logs 105,
113), the order of equal traps too (log 79). R188, R98: a load of device memory leaves every register as it was and records a result that
will arrive, signed where B is even. For bytes of its stores that are not published it holds those bytes, 8 cycles later; every other byte
of a load of normal memory is one that memory held before any publication or that a publication gave it, and where there has been none,
the byte that memory holds. A load that finds its line in the core view (R500) takes its other bytes from the line, 8 cycles later. A load
of a device or strongly ordered page with no publication takes the bytes of memory, 300 cycles after its issue or after the accesses
before it (R90, R306). Waits of a supervisor core while the home slices move are the model's reading (log 113). -/
def Obligations.GlobalLoads : Prop :=
  (∀ (o : OpL) (s : State) (ea : Word) (n : Nat), s.pS o.g = true →
    ea = BitVec.ofInt 64 ((s.aR o.a).toInt + (BitVec.ofNat 32 o.imm).toInt) → n = 2 ^ (o.b / 2) →
    (s.st.acqOpen = true → Does (.ld o) s (fun t => t = s.block .stall)) ∧
    (∀ (i : Instr) (k : AccessKind),
      i = .st o ∧ k = .write ∨ i = .ld o ∧ k = .read ∧ s.st.acqOpen = false ∧ s.findLine s.cur ea.toNat = none ∧
        (∃ j, j < n ∧ s.st.ownByte (ea.toNat + j) = none) →
      (ea.toNat % n ≠ 0 → Does i s (fun t => t = s.raise { prio := 80, code := 0x0A, tinfo := ea })) ∧
      (ea.toNat % n = 0 → 2 ^ 56 ≤ ea.toNat → Does i s (fun t => t = s.raise { prio := 101, code := 0x41, tinfo := ea })) ∧
      (∀ s', ea.toNat % n = 0 → ea.toNat < 2 ^ 56 → s.strandAccess s.cur ea.toNat k = (s', .page) →
        Does i s (fun t => t = s'.raise { prio := 100, code := 0x40, tinfo := ea })) ∧
      (∀ s', ea.toNat % n = 0 → ea.toNat < 2 ^ 56 → s.strandAccess s.cur ea.toNat k = (s', .prot) →
        Does i s (fun t => t = s'.raise { prio := 101, code := 0x41, tinfo := ea })) ∧
      (∀ s' pa ty leaf attr, ea.toNat % n = 0 → ea.toNat < 2 ^ 56 → s.strandAccess s.cur ea.toNat k = (s', .ok pa ty leaf attr) →
        s.globalCheck ea n k = (s', .ok (pa, ty, leaf)) ∧
        (2 ≤ ty ∧ s'.st.pcieOpen = true ∨ s'.st.reqAt pa n = true → Does i s (fun t => t = s'.block .stall)))) ∧
    (∀ s' pa ty leaf, o.b < 7 → s.st.acqOpen = false → s.findLine s.cur ea.toNat = none →
      s.globalCheck ea n .read = (s', .ok (pa, ty, leaf)) → (ty < 2 ∨ s'.st.pcieOpen = false) → s'.st.reqOpen = false →
      (∀ port addr, targetOf pa = .pcie port addr → Does (.ld o) s (fun t => t.mem = s'.mem ∧ t.st.a = s'.st.a ∧
        (∃ p, t.st.pend = s'.st.pend ++ [p] ∧ p.pcie = true ∧ p.dest = .a o.d ∧ p.done = false ∧ p.size = n ∧
          p.signed = (o.b % 2 == 0) ∧ p.va = ea.toNat) ∧
        ∃ x, t.pcieOut = s'.pcieOut ++ [x] ∧ x.port = port ∧ x.addr = addr ∧ x.kind = 1)) ∧
      (∀ off, targetOf pa = .ctrl off → Does (.ld o) s (fun t => t.mem = s'.mem ∧ t.st.a = s'.st.a ∧
        ∃ p, t.st.pend = s'.st.pend ++ [p] ∧ p.dest = .a o.d ∧ p.due = s'.cycle + 300 ∧
          p.value = loadedValue o.b n (s'.regRead false off n)))) ∧
    ∀ s' pa ty leaf, (o.b = 0 ∨ o.b = 2 ∨ o.b = 4 ∨ o.b = 6) → s.globalCheck ea n .write = (s', .ok (pa, ty, leaf)) →
      (ty < 2 ∨ s'.st.pcieOpen = false) → s'.st.reqOpen = false →
      (∀ port addr, targetOf pa = .pcie port addr → Does (.st o) s (fun t => { t with pcieOut := s'.pcieOut } = s' ∧
        ∃ x, t.pcieOut = s'.pcieOut ++ [x] ∧ x.port = port ∧ x.addr = addr ∧ x.kind = 0 ∧
          x.data = (List.range n).map (fun k => BitVec.ofNat 8 ((s.aR o.d).toNat / 256 ^ k)))) ∧
      (∀ off, targetOf pa = .ctrl off → Does (.st o) s (fun t => t = s'.regWrite false off n ((s.aR o.d).toNat % 2 ^ (8 * n)) s'.st.level))) ∧
  ((∀ (o : OpL) (s : State) (ea : Word) (n : Nat) (l : Line) (b : Nat → Byte), s.pS o.g = true → o.b < 7 → s.st.acqOpen = false →
    s.st.reqOpen = false →
    ea = BitVec.ofInt 64 ((s.aR o.a).toInt + (BitVec.ofNat 32 o.imm).toInt) → n = 2 ^ (o.b / 2) → ea.toNat % n = 0 →
    s.findLine s.cur ea.toNat = some l → l.data.length = 64 → Config.lineDropped s.freeN = false →
    (∃ j, j < n ∧ s.st.ownByte (ea.toNat + j) = none) →
    (∀ j, j < n → b j = (s.st.ownByte (ea.toNat + j)).getD ((l.data.getD (ea.toNat % 64 + j) (0, 0)).2)) →
    Does (.ld o) s (fun t => t.mem = s.mem ∧ t.teams = s.teams ∧ t.st.a = s.st.a ∧
      ∃ p, t.st.pend = s.st.pend ++ [p] ∧ p.dest = .a o.d ∧ p.ok = true ∧ p.done = true ∧ p.due = s.cycle + 8 ∧ p.pc = s.rs.pc ∧
        p.value = loadedValue o.b n (littleEndian b n))) ∧
  ∀ (o : OpL) (s s' : State) (ea : Word) (n pa ty leaf : Nat), s.pS o.g = true → o.b < 7 → s.st.acqOpen = false →
    ea = BitVec.ofInt 64 ((s.aR o.a).toInt + (BitVec.ofNat 32 o.imm).toInt) → n = 2 ^ (o.b / 2) →
    (s.findLine s.cur ea.toNat = none ∨ s.st.reqOpen = true ∨ ∀ i, i < n → (s.st.ownByte (ea.toNat + i)).isSome = true) →
    s.globalCheck ea n .read = (s', .ok (pa, ty, leaf)) → targetOf pa = .dram → pa % 64 = ea.toNat % 64 →
    (ty < 2 ∧ s'.homesMove = true ∨ s'.st.reqAt pa n = true → Does (.ld o) s (fun t => t = s'.block .stall)) ∧
    (ty < 2 → s'.homesMove = false → s'.st.reqAt pa n = false → Does (.ld o) s (fun t => t.mem = s'.mem ∧ t.teams = s'.teams ∧ t.st.a = s'.st.a ∧
      ∃ p, t.st.pend = s'.st.pend ++ [p] ∧ p.dest = .a o.d ∧ p.ok = true ∧ p.done = true ∧ p.pc = s'.rs.pc ∧ s'.cycle + 8 ≤ p.due ∧
        (s'.log = [] → p.value = loadedValue o.b n
          (littleEndian (fun i => (s'.st.ownByte (ea.toNat + i)).getD (Memory.read s'.mem (pa + i))) n)) ∧
        ∃ b : Nat → Byte, p.value = loadedValue o.b n (littleEndian b n) ∧
          ∀ i, i < n → s'.st.ownByte (ea.toNat + i) = some (b i) ∨ s'.st.ownByte (ea.toNat + i) = none ∧
            (b i = s'.firstByte (pa + i) ∨ ∃ q ∈ s'.log, q.byteAt (pa + i) = some (b i)))) ∧
    (2 ≤ ty → s'.st.pcieOpen = false → s'.st.reqOpen = false → Does (.ld o) s (fun t => t.mem = s'.mem ∧ t.teams = s'.teams ∧ t.st.a = s'.st.a ∧
      ∃ p, t.st.pend = s'.st.pend ++ [p] ∧ p.dest = .a o.d ∧ p.ok = true ∧ p.done = true ∧ p.pc = s'.rs.pc ∧
        p.due = (if ty = 3 then max s'.cycle s'.st.devDone + 300 else max (s'.cycle + 300) s'.st.devDone) ∧
        (s'.log = [] → p.value = loadedValue o.b n (littleEndian (fun i => Memory.read s'.mem (pa + i)) n)))) ∧
    ∀ b : Nat → Byte, ty < 2 → s'.homesMove = false → s'.st.reqAt pa n = false → (∀ i, i < n → s'.st.ownByte (ea.toNat + i) = some (b i)) →
      Does (.ld o) s (fun t => StrandIs s' t { s'.st with
        pend := s'.st.pend ++ [{
          global := true, dest := .a o.d, va := ea.toNat, due := s'.cycle + 8, pc := s'.rs.pc, rep := s'.rs.rep,
          value := loadedValue o.b n (littleEndian b n) }] }))

/-- R102, R105 to R107, R191, R414: an atomic checks its alignment, its address and its page, which must allow reads and writes. It waits
for an acquiring atomic through a PCIe window, for a request of the strand that has not left the core, with an order at .sys for the
strand's accesses through such windows, and to a device page for them too. Without a release, on device memory, by a strand with no
pending store, it reads its location at the home, gives the old value to its register later, and changes the location and no other byte:
ATOM to the operation's value, CAS to B only where the old value equals aD. With a release it retires as a request, with the stores that
it publishes first, 4 cycles before the end that R307 gives the boundary (log 134), or takes the fault of a store that faults. Through a
PCIe window an add, a swap and a CAS become a request to a port that carries them; the others, a port without them and a window of the
device's registers take the protection fault. That an atomic on the control block or on nothing is a protection fault is the model's
reading (logs 70, 71), and so are its waits (logs 105, 113). R191: the operations of ATOM on n bytes: add, and, or, xor, min and max
signed, minu and maxu, swap. -/
def Obligations.Atomics : Prop :=
  (∀ (o : OpL) (s : State) (ea : Word) (n : Nat) (i : Instr) (cas rel acq : Bool) (scope : Nat), s.pS o.g = true →
    (i = .atom o ∧ cas = false ∧ Sys2Proof.WellFormed (.atom o)) ∨ (i = .cas o ∧ cas = true ∧ Sys2Proof.WellFormed (.cas o)) →
    n = (if o.imm.testBit 3 then 8 else 4) → rel = o.imm.testBit 7 → acq = o.imm.testBit 6 → scope = o.imm / 16 % 4 →
    ea = BitVec.ofInt 64 ((s.aR o.a).toInt + (BitVec.ofNat 20 (o.imm / 4096)).toInt) →
    (ea.toNat % n ≠ 0 → Does i s (fun t => t = s.raise { prio := 80, code := 0x0A, tinfo := ea })) ∧
    (ea.toNat % n = 0 → 2 ^ 56 ≤ ea.toNat → Does i s (fun t => t = s.raise { prio := 101, code := 0x41, tinfo := ea })) ∧
    (∀ s', ea.toNat % n = 0 → ea.toNat < 2 ^ 56 → s.strandAccess s.cur ea.toNat .update = (s', .page) →
      Does i s (fun t => t = s'.raise { prio := 100, code := 0x40, tinfo := ea })) ∧
    (∀ s', ea.toNat % n = 0 → ea.toNat < 2 ^ 56 → s.strandAccess s.cur ea.toNat .update = (s', .prot) →
      Does i s (fun t => t = s'.raise { prio := 101, code := 0x41, tinfo := ea })) ∧
    (∀ level perm, AccessKind.update.permits level perm = true ↔ level ≠ 0 ∨ perm.testBit 0 = true ∧ perm.testBit 1 = true) ∧
    ∀ (s' : State) (pa ty leaf : Nat) (waits : Prop), s.globalCheck ea n .update = (s', .ok (pa, ty, leaf)) →
    (waits ↔ s'.st.acqOpen = true ∨ s'.st.reqOpen = true ∨ (rel = true ∨ acq = true) ∧ scope = 3 ∧ s'.st.pcieOpen = true ∨
      s'.homesMove = true ∧ (ty < 2 ∧ targetOf pa = .dram ∨ rel = true) ∨ 2 ≤ ty ∧ s'.st.pcieOpen = true) →
    (∀ off, targetOf pa = .ctrl off → Does i s (fun t => t = s'.raise { prio := 101, code := 0x41, tinfo := ea })) ∧
    (∀ port addr, targetOf pa = .pcie port addr → Config.atomicOps pa = false ∨ cas = false ∧ o.imm / 256 % 16 ≠ 0 ∧ o.imm / 256 % 16 ≠ 8 →
      Does i s (fun t => t = s'.raise { prio := 101, code := 0x41, tinfo := ea })) ∧
    (targetOf pa = .dram ∨ (∃ port addr, targetOf pa = .pcie port addr) ∧ Config.atomicOps pa = true ∧
        (cas = true ∨ o.imm / 256 % 16 = 0 ∨ o.imm / 256 % 16 = 8) →
      (waits → Does i s (fun t => t = s'.block .stall)) ∧
      (∀ x u cells b va c fs, ¬ waits → rel = true → x = (if scope = 1 ∧ isSupervisor (teamOf s.cur) = true then 2 else scope) →
        s'.pubCells s'.cur (s'.st.toPublish x) = (u, cells, (b, va, c) :: fs) → Does i s (fun t => t = s'.raise (memFault c va))) ∧
      (∀ x u cells m, ¬ waits → rel = true → x = (if scope = 1 ∧ isSupervisor (teamOf s.cur) = true then 2 else scope) →
        s'.pubCells s'.cur (s'.st.toPublish x) = (u, cells, []) → m = s'.st.sectors x →
        Does i s (fun t => { t with strands := s'.strands, freeN := s'.freeN } = s' ∧ (∀ k, k ≠ s'.cur → t.strand k = s'.strand k) ∧
          t.st = { s'.st with pend := s'.st.pend ++ [{
            global := false, dest := .a o.d, value := 0, done := false, pc := s'.rs.pc, rep := s'.rs.rep, scope := x
            stores := s'.st.toPublish x, req := some (.atom o cas ea.toNat pa ty leaf (s'.aR o.b).toNat (s'.aR o.d).toNat)
            due := max s'.cycle s'.st.devDone + (if x = 0 then 2 else if x = 1 then 20 + m else 60 + m) }] })) ∧
      (¬ waits → rel = false → targetOf pa = .dram → (∀ p ∈ s'.st.stores, ∀ w, p.2 = some w → w.scope ≠ none) → ∀ old,
        old = littleEndian (fun k => Memory.read s'.mem (pa + k)) n →
        Does i s (fun t => t.teams = s'.teams ∧ t.st.a = s'.st.a ∧
          (∃ p, t.st.pend = s'.st.pend ++ [p] ∧ p.dest = .a o.d ∧ p.value = old ∧ p.ok = true ∧ p.done = true ∧ s'.cycle + 52 ≤ p.due) ∧
          ∀ a, Memory.read t.mem a = if pa ≤ a ∧ a < pa + n ∧ (cas = true → old = (s.aR o.d).toNat % 2 ^ (8 * n))
            then BitVec.ofNat 8 ((if cas then (s.aR o.b).toNat else atomicOp (o.imm / 256 % 16) n old (s.aR o.b).toNat) / 256 ^ (a - pa))
            else Memory.read s'.mem a)) ∧
      (∀ port addr, ¬ waits → rel = false → targetOf pa = .pcie port addr →
        Does i s (fun t => t.teams = s'.teams ∧ t.st.a = s'.st.a ∧ t.mem = s'.mem ∧
          (∃ p, t.st.pend = s'.st.pend ++ [p] ∧ p.pcie = true ∧ p.dest = .a o.d ∧ p.done = false ∧ p.size = n ∧
            p.acq = (if acq then some (if scope = 1 ∧ isSupervisor (teamOf s.cur) = true then 2 else scope) else none)) ∧
          ∃ x, t.pcieOut = s'.pcieOut ++ [x] ∧ x.port = port ∧ x.addr = addr ∧ x.kind = 2 ∧
            x.op = (if cas then 2 else if o.imm / 256 % 16 = 0 then 0 else 1) ∧
            ∀ k, k < n → x.data[k]? = some (BitVec.ofNat 8 ((s.aR o.b).toNat / 256 ^ k)) ∧
              x.data[n + k]? = if cas then some (BitVec.ofNat 8 ((s.aR o.d).toNat / 256 ^ k)) else none)))) ∧
  (∀ (n old b : Nat), (n = 4 ∨ n = 8) → old < 2 ^ (8 * n) →
    atomicOp 0 n old b = (old + b) % 2 ^ (8 * n) ∧ atomicOp 1 n old b = old &&& b % 2 ^ (8 * n) ∧
    atomicOp 2 n old b = old ||| b % 2 ^ (8 * n) ∧ atomicOp 3 n old b = old ^^^ b % 2 ^ (8 * n) ∧
    atomicOp 4 n old b = (if (BitVec.ofNat (8 * n) old).toInt < (BitVec.ofNat (8 * n) b).toInt then old else b % 2 ^ (8 * n)) ∧
    atomicOp 5 n old b = (if (BitVec.ofNat (8 * n) old).toInt > (BitVec.ofNat (8 * n) b).toInt then old else b % 2 ^ (8 * n)) ∧
    atomicOp 6 n old b = min old (b % 2 ^ (8 * n)) ∧ atomicOp 7 n old b = max old (b % 2 ^ (8 * n)) ∧
    atomicOp 8 n old b = b % 2 ^ (8 * n))

/-- R93, R302, R306, R102, R414, R501: an outstanding result arrives: it leaves the list and its value goes to its register; a releasing
atomic's request leaves the core, and, of a strand with no pending store, changes its location then; where the publication before it fails
only then, the strand parks at the request's bundle; a load or atomic that failed, or a PCIe access that passed the completion timeout,
writes no register and raises fault 0x46 with its address: the strand parks on it, or, where it is parked already, takes it when it is
resumed. -/
def Obligations.ResultsArrive : Prop :=
  (∀ (k v : Nat) (s : State) (p : Pending) (n : Nat), (s.strand k).nextPend (fun p => p.global && !p.failed) = some p → p.dest = .a n →
    p.ok = true → p.acq = none → (p.pcie = true → p.size = 1 ∨ p.size = 2 ∨ p.size = 4 ∨ p.size = 8) →
    (∀ w ∈ (s.strand k).transom, (if p.pcie then max s.cycle p.due - 1 else p.due - 1) < w.due) →
    Does (.globalAccessComplete k true v) s (fun t => t.mem = s.mem ∧ t.cycle = max s.cycle p.due ∧ (∀ j, j ≠ k → t.strand j = s.strand j) ∧
      { t.strand k with a := (s.strand k).a } = { s.strand k with pend := (s.strand k).pend.erase p } ∧
      ∀ m, NMap.get 0 (t.strand k).a m = if m = n
        then (if p.pcie then (if p.signed then (BitVec.ofNat (8 * p.size) v).signExtend 64 else BitVec.ofNat 64 (v % 2 ^ (8 * p.size)))
          else BitVec.ofNat 64 p.value)
        else NMap.get 0 (s.strand k).a m)) ∧
  (∀ (k : Nat) (s : State) (p : Pending) (i : Instr), k ≠ 4 * runtimeTeam → p.code = 0x46 →
    ((∃ v, i = .globalAccessComplete k false v) ∧ (s.strand k).nextPend (fun p => p.global && !p.failed) = some p) ∨
      (i = .pcieCompletionTimeout k ∧ (s.strand k).nextPend (fun p => p.global && p.pcie && !p.failed) = some p) →
    ((s.strand k).run ≠ .parked → (s.strand k).run ≠ .exited → (s.strand k).run ≠ .terminated →
      Does i s (fun t => (t.strand k).run = .parked ∧ (t.strand k).a = (s.strand k).a ∧
        (t.strand k).pend = (s.strand k).pend.erase p ∧
        (t.strand k).parked = some { code := 0x46, tinfo := BitVec.ofNat 64 p.va, tepc := p.pc, trep := p.rep })) ∧
    ((s.strand k).run = .parked → Does i s (fun t => (t.strand k).a = (s.strand k).a ∧ (t.strand k).parked = (s.strand k).parked ∧
      { p with failed := true } ∈ (t.strand k).pend ∧
      ∀ d, d < 3 → (s.strand k).parked.isSome = true → ∃ q ∈ (t.strand k).pend, q.failed = true ∧
        ((t.resumeStrand k d).strand k).parked =
          some { code := q.code, tinfo := BitVec.ofNat 64 q.va, tepc := q.pc, trep := q.rep }))) ∧
  (∀ (k : Nat) (s : State) (p : Pending) (n : Nat), s.nextService k = some p → p.req = none → p.dest = .a n → p.ok = true →
    (∀ w ∈ (s.strand k).transom, p.due - 1 < w.due) →
    Does (.dOperationComplete k) s (fun t => t.mem = s.mem ∧ t.cycle = max s.cycle p.due ∧ (∀ j, j ≠ k → t.strand j = s.strand j) ∧
      { t.strand k with a := (s.strand k).a } = { s.strand k with pend := (s.strand k).pend.erase p } ∧
      ∀ m, NMap.get 0 (t.strand k).a m = if m = n then BitVec.ofNat 64 p.value else NMap.get 0 (s.strand k).a m)) ∧
  (∀ (k : Nat) (s u : State) (p : Pending) (r : Request) (va c : Nat), s.nextService k = some p → p.req = some r → k ≠ 4 * runtimeTeam → c < 0x80 →
    ({ s with cycle := max s.cycle p.due, cur := k, iss := {} } : State).publishStores k p.scope p.stores = (u, some (va, c)) →
    (s.strand k).run ≠ .parked → (s.strand k).run ≠ .exited → (s.strand k).run ≠ .terminated →
    Does (.dOperationComplete k) s (fun t => (t.strand k).run = .parked ∧ (t.strand k).a = (s.strand k).a ∧ (t.strand k).stores = (s.strand k).stores ∧
      (t.strand k).parked = some { code := c, tinfo := BitVec.ofNat 64 va, tepc := p.pc, trep := p.rep })) ∧
  ∀ (k : Nat) (s : State) (p : Pending) (o : OpL) (cas : Bool) (va pa ty leaf b d n old : Nat), s.nextService k = some p →
    p.req = some (.atom o cas va pa ty leaf b d) → p.stores = [] → targetOf pa = .dram → n = (if o.imm.testBit 3 then 8 else 4) →
    (∀ q ∈ (s.strand k).stores, ∀ w, q.2 = some w → w.scope ≠ none) → old = littleEndian (fun i => Memory.read s.mem (pa + i)) n →
    Does (.dOperationComplete k) s (fun t => t.teams = s.teams ∧ (t.strand k).a = (s.strand k).a ∧ t.cycle = max s.cycle p.due ∧
      (∃ q, (t.strand k).pend = (s.strand k).pend.erase p ++ [q] ∧ q.dest = .a o.d ∧ q.value = old ∧ q.global = true ∧ q.req = none) ∧
      ∀ a, Memory.read t.mem a = if pa ≤ a ∧ a < pa + n ∧ (cas = true → old = d % 2 ^ (8 * n))
        then BitVec.ofNat 8 ((if cas then b else atomicOp (o.imm / 256 % 16) n old b) / 256 ^ (a - pa)) else Memory.read s.mem a)

/-- R247, R309: an operation on tiles of the quota enters the M queue of its core where the queue has room, and nothing else changes; it
stalls where eight operations wait. R26: a tile beyond the quota takes trap 0x07 with its number. R244, R247, R251, R255, R256: MMA, MMAZ,
MMAG, MLD and MST enter the M queue where it has room, their tiles and panes lie in the quota, no pane of theirs is closed to the team but
one that a command still holds, and the descriptors of the open ones agree; where eight operations wait they stall. A pane address that is
not aligned takes trap 0x0A. R110, R289: a pane that SHUT closed, or that the ring engine alone holds, takes trap 0x06 with its number,
one that a failed ring pair left closed the fault 0x43; that one which another command names too is waited for is the model's reading (log
144). R72: an MST has set the descriptors of its open panes. When an MST sets its descriptors is the model's reading (log 111). R110,
R289: of a pane that an M operation uses, an open one passes, and one that an incomplete command holds that is not the ring engine's; a
closed one takes trap 0x06 with its number, and one that a failed ring pair left closed the fault 0x43 with port and step. R254, R262:
MIDX sends the sixteen words of a register, as 32 halfwords, to half of the index latch in 4 cycles; MWAIT goes on where no operation of
the strand that it names is left, and stalls otherwise. -/
def Obligations.MatrixInstructionsIssue : Prop :=
  (∀ (o : OpMT) (s : State) (i : Instr) (td : Nat) (used : List Nat) (K : Core), s.pS o.g = true → td = s.addr 0 o.td →
    K = s.core (s.coreOf (teamOf s.cur)) →
    (i = .mzero o ∧ used = (List.range (o.cnt + 1)).map (td + ·)) ∨
    ((i = .mtrn o ∨ i = .mrowmax o ∨ i = .mrowsum o) ∧ used = [td, o.ta]) ∨
    ((i = .mscale o ∨ i = .maddt o) ∧ used = [td, o.ta, o.tb]) →
    ((∀ t ∈ used, t < s.rt.tiles) →
      (K.mq.length < 8 → Does i s (fun t => OnlyCores s t ∧ (∀ c, c ≠ s.coreOf (teamOf s.cur) → t.core c = s.core c) ∧
        ∃ ds, t.core (s.coreOf (teamOf s.cur)) = { K with
          mq := K.mq ++ [{ strand := s.cur, op := i, tile := td, ready := s.cycle + 1, before := s.nextCmd, descs := ds }] })) ∧
      (8 ≤ K.mq.length → Does i s (fun t => t = s.block .stall))) ∧
    ∀ (pre post : List Nat) (u : Nat), used = pre ++ u :: post → (∀ t ∈ pre, t < s.rt.tiles) → s.rt.tiles ≤ u →
      Does i s (fun t => t = s.raise { prio := 60, code := 0x07, tinfo := BitVec.ofNat 64 u })) ∧
  ((∀ (o : OpMA) (s : State) (i : Instr) (K : Core) (q : MOp) (td wa xa : Nat), s.pS o.g = true → K = s.core (s.coreOf (teamOf s.cur)) →
    td = s.addr 0 o.td → wa = s.paneArg 1 o.wp → xa = s.paneArg 2 o.xp → td < s.rt.tiles →
    ((i = .mma o ∨ i = .mmaz o) ∧ q.latch = [] ∨ i = .mmag o ∧ q.latch = s.rs.latch) →
    (wa % 4096 ≠ 0 → Does i s (fun t => ∃ e, t = s.raise e ∧ e.prio ≤ 80 ∧ (xa % 4096 = 0 → xa < 4194304 → xa / 4096 + o.kp < s.rt.xp →
      (∀ p, p ≤ o.kp → s.mShutter 2 (xa / 4096 + p) = []) → i ≠ .mmag o → e = { prio := 80, code := 0x0A, tinfo := BitVec.ofNat 64 wa }))) ∧
    (q = { strand := s.cur, op := i, tile := td, w := wa / 4096, x := xa / 4096, latch := q.latch } →
      wa % 4096 = 0 → xa % 4096 = 0 → q.w < 1024 → q.x < 1024 → q.w + o.kp < s.rt.wp → q.x + o.kp < s.rt.xp →
      (∀ p, p ≤ o.kp → s.mShutter 1 (q.w + p) = []) →
      (q.latch = [] ∧ i ≠ .mmag o → ∀ p, p ≤ o.kp → s.mShutter 2 (q.x + p) = []) →
      (i = .mmag o → ∀ r p, r < 64 → p ≤ o.kp → latchPane s.rs.latch r < 1024 ∧ latchPane s.rs.latch r + p < s.rt.xp ∧
        s.mShutter 2 (latchPane s.rs.latch r + p) = []) →
      s.rt.mmaCause q (o.kp + 1) (o.int == 1) (fun j => s.rt.shutter j == .t) = none →
      (K.mq.length < 8 → Does i s (fun t => OnlyCores s t ∧ (∀ c, c ≠ s.coreOf (teamOf s.cur) → t.core c = s.core c) ∧
        (t.core (s.coreOf (teamOf s.cur))) =
          { K with mq := K.mq ++ [{ q with ready := s.cycle + 1, before := s.nextCmd, descs := s.tm.openDescs q }] })) ∧
      (8 ≤ K.mq.length → Does i s (fun t => t = s.block .stall)))) ∧
  ∀ (o : OpMX) (s : State) (i : Instr) (K : Core) (q : MOp) (n xa : Nat), s.pS o.g = true → K = s.core (s.coreOf (teamOf s.cur)) →
    xa = s.paneArg 1 o.xp → q = { strand := s.cur, op := i, tile := s.addr 0 o.t, x := xa / 4096, deferred := q.deferred } →
    ((i = .mld o ∧ s.rt.shutter (1056 + q.x) = .t ∧ q.deferred = false ∧ n = runLen (dFmt (s.rt.descOf (1056 + q.x))) ∧
        s.rt.mldCause q.x (fun y => s.rt.shutter (1056 + y) == .t) = none) ∨
      (i = .mld o ∧ s.rt.shutter (1056 + q.x) ≠ .t ∧ q.deferred = true ∧ n = 1) ∨ (i = .mst o ∧ q.deferred = false ∧ n = runLen o.fmt)) →
    q.tile < s.rt.tiles →
    (xa % 4096 ≠ 0 → Does i s (fun t => t = s.raise { prio := 80, code := 0x0A, tinfo := BitVec.ofNat 64 xa })) ∧
    (xa % 4096 = 0 → q.x < 1024 → q.x + n ≤ s.rt.xp → ∀ p e, p < n → (∀ j, j < p → s.mShutter 2 (q.x + j) = []) →
      s.mShutter 2 (q.x + p) = [.trap e] → Does i s (fun t => t = s.raise e)) ∧
    (xa % 4096 = 0 → q.x < 1024 → q.x + n ≤ s.rt.xp → (∀ p, p < n → s.mShutter 2 (q.x + p) = []) →
      (K.mq.length < 8 → Does i s (fun t => { t with cores := s.cores, teams := s.teams } = s ∧
        (∀ c, c ≠ s.coreOf (teamOf s.cur) → t.core c = s.core c) ∧ (t.core (s.coreOf (teamOf s.cur))) =
          { K with mq := K.mq ++ [{ q with ready := s.cycle + 1, before := s.nextCmd, descs := s.tm.openDescs q }] } ∧
        (∀ u, u ≠ teamOf s.cur → t.team u = s.team u) ∧ { t.tm with desc := s.tm.desc } = s.tm ∧
        ∀ j, NMap.get 0 t.tm.desc j = if i = .mst o ∧ 1056 + q.x ≤ j ∧ j < 1056 + q.x + n ∧ s.tm.shutter j = .t
          then mkDesc o.fmt o.sgeo o.tag o.cb else NMap.get 0 s.tm.desc j)) ∧
      (8 ≤ K.mq.length → Does i s (fun t => t = s.block .stall)))) ∧
  (∀ (s : State) (buf p i : Nat), i = (if buf = 1 then 32 + p else 1056 + p) →
    ((s.rt.shutter i = .t ∨ ∃ c ∈ s.rt.cmds, c.ring = none ∧ i ∈ c.items) → s.mShutter buf p = []) ∧
    (s.rt.shutter i ≠ .t → (∀ c ∈ s.rt.cmds, c.ring = none → i ∉ c.items) → s.mShutter buf p = [.trap (match s.rt.shutter i with
      | .ringFailed port tag => { prio := 70, code := 0x43, tinfo := BitVec.ofNat 64 (tag % 2 ^ 32 * 2 ^ 32 + port) }
      | _ => { prio := 70, code := 0x06, tinfo := BitVec.ofNat 64 p })])) ∧
  ((∀ (o : OpMI) (s : State), s.pS o.g = true →
    Does (.midx o) s (fun t => ∃ w : TransomWrite, StrandIs s t { s.st with transom := s.st.transom ++ [w] } ∧
      w.due = s.cycle + 4 ∧ w.dest = .latch o.half ∧ w.vals.length = 32 ∧
      ∀ l, l < 16 → w.vals[2 * l]? = some ((s.vR o.bay o.va l).toNat % 65536) ∧
        w.vals[2 * l + 1]? = some ((s.vR o.bay o.va l).toNat / 65536))) ∧
  ∀ (o : OpMW) (s : State) (td : Nat), s.pS o.g = true → td = s.addr 0 o.td → o.one < 2 →
    (o.one = 1 → s.rt.tiles ≤ td → Does (.mwait o) s (fun t => t = s.raise { prio := 60, code := 0x07, tinfo := BitVec.ofNat 64 td })) ∧
    ((o.one = 1 → td < s.rt.tiles) →
      ((∀ p ∈ s.mOps (teamOf s.cur), p.strand = s.cur → o.one = 1 ∧ td ∉ p.writes) → Does (.mwait o) s (fun t => t = s)) ∧
      ((∃ p ∈ s.mOps (teamOf s.cur), p.strand = s.cur ∧ (o.one = 0 ∨ td ∈ p.writes)) → Does (.mwait o) s (fun t => t = s.block .stall))))

/-- R248, R249: the head of the M queue starts once its operands are ready, and does not before: it leaves the queue, its results are
those of its operands as they stand, and it writes no tile or pane yet; one that fails the check made at the head will write nothing and
set NV. When it completes, its results are written and its flags merged. -/
def Obligations.MatrixOperationsRun : Prop :=
  (∀ (c : Nat) (s : State) (q : MOp) (rest : List MOp), (s.core c).mrun = none → (s.core c).mq = q :: rest →
    (s.mReady q = false → Does (.mOpStart c) s (fun t => t = s)) ∧
    (s.mReady q = true → (((s.team (teamOf q.strand)).seenBy q).headCheck q = none) →
      Does (.mOpStart c) s (fun t => t.mem = s.mem ∧ t.teams = s.teams ∧ t.strands = s.strands ∧ (t.core c).mq = rest ∧
        ∃ r, (t.core c).mrun = some r ∧ r.op = q ∧ r.tiles = (s.mCompute q 0).tiles ∧ r.panes = (s.mCompute q 0).panes ∧
          r.marks = (s.mCompute q 0).marks ∧ r.flags = (s.mCompute q 0).flags)) ∧
    (s.mReady q = true → ∀ d, (((s.team (teamOf q.strand)).seenBy q).headCheck q = some d) →
      Does (.mOpStart c) s (fun t => (t.core c).mq = rest ∧
        ∃ r, (t.core c).mrun = some r ∧ r.op = q ∧ r.tiles = [] ∧ r.panes = [] ∧ r.marks = [] ∧ r.flags = fNV))) ∧
  ∀ (c : Nat) (s : State) (r : MRun) (u : Nat), (s.core c).mrun = some r → u = teamOf r.op.strand →
    Does (.mOpComplete c) s (fun t => t.mem = s.mem ∧ t.cycle = max s.cycle r.done ∧ (t.core c).mrun = none ∧
      { t.team u with cmds := (s.team u).cmds } = (s.team u).applyRun r ∧
      (∀ v, v ≠ u → { t.team v with cmds := (s.team v).cmds } = s.team v) ∧
      (∀ v, (t.team v).cmds.map (fun d => (d.id, d.op)) = (s.team v).cmds.map (fun d => (d.id, d.op))) ∧
      (t.strand r.op.strand).flags = (s.strand r.op.strand).flags ||| r.flags ∧
      (∀ k, k ≠ r.op.strand → t.strand k = s.strand k) ∧
      ∀ x vals, r.tiles = [(x, vals)] → vals.length = 4096 → (t.team u).tileAt x = vals.map (·.toNat))

/-- R250, R257 to R261: what MTRN, MADDT, MZERO, MSCALE, MROWMAX and MROWSUM write, from their operands as they stand when they start:
MTRN the transpose of its tile, MADDT the sum of two tiles element by element, rounded, or with INT saturated with SAT; MZERO zeros, or
the discard marks; MSCALE each element with the element of a column in its row; MROWMAX and MROWSUM one column, every other element as it
was. A tile reads what was last written to it, which clears its void flag, and a void one zeros. R77: the integer product adds each chunk
exactly and saturates the 32-bit accumulator. -/
def Obligations.TileValues : Prop :=
  ((∀ (s : State) (q : MOp) (T : Team) (a b d : List Nat), T = (s.team (teamOf q.strand)).seenBy q → d = T.tileAt q.tile →
    (∀ m, q.op = .mtrn m → a = T.tileAt m.ta → (s.mCompute q 0).flags = 0 ∧ (s.mCompute q 0).panes = [] ∧
      ∃ vals, (s.mCompute q 0).tiles = [(q.tile, vals)] ∧ vals.length = 4096 ∧
        ∀ (i j : Nat), i < 64 → j < 64 → vals[64 * i + j]? = (a[64 * j + i]?).map (BitVec.ofNat 32)) ∧
    (∀ m, q.op = .maddt m → a = T.tileAt m.ta → b = T.tileAt m.tb → (s.mCompute q 0).panes = [] ∧
      ∃ vals : List Lane, (s.mCompute q 0).tiles = [(q.tile, vals)] ∧ vals.length = 4096 ∧
        (∀ (k x y : Nat), a[k]? = some x → b[k]? = some y → m.int ≠ 1 → vals[k]? = some (BitVec.ofNat 32 (fp32.addC x y).1)) ∧
        (∀ (k x y : Nat), a[k]? = some x → b[k]? = some y → m.int = 1 → vals[k]? = some (BitVec.ofInt 32
          (max (-2147483648) (min 2147483647 ((BitVec.ofNat 32 x).toInt + (BitVec.ofNat 32 y).toInt))))) ∧
        (m.int = 1 → ((s.mCompute q 0).flags = fSAT ∧ ∃ (k x y : Nat), a[k]? = some x ∧ b[k]? = some y ∧
            ((BitVec.ofNat 32 x).toInt + (BitVec.ofNat 32 y).toInt < -2147483648 ∨
              2147483647 < (BitVec.ofNat 32 x).toInt + (BitVec.ofNat 32 y).toInt)) ∨
          ((s.mCompute q 0).flags = 0 ∧ ∀ (k x y : Nat), a[k]? = some x → b[k]? = some y →
            -2147483648 ≤ (BitVec.ofNat 32 x).toInt + (BitVec.ofNat 32 y).toInt ∧
              (BitVec.ofNat 32 x).toInt + (BitVec.ofNat 32 y).toInt ≤ 2147483647))) ∧
    (∀ m, q.op = .mzero m → (s.mCompute q 0).flags = 0 ∧ (s.mCompute q 0).panes = [] ∧
      (m.mode = 0 → (s.mCompute q 0).marks = [] ∧
        (s.mCompute q 0).tiles = (List.range (m.cnt + 1)).map (fun i => (q.tile + i, List.replicate 4096 0))) ∧
      (m.mode ≠ 0 → (s.mCompute q 0).tiles = [] ∧
        (s.mCompute q 0).marks = (List.range (m.cnt + 1)).map (fun i => (q.tile + i, m.mode == 1)))) ∧
    (∀ m, q.op = .mscale m → a = T.tileAt m.ta → b = T.tileAt m.tb → m.col < 64 → (s.mCompute q 0).panes = [] ∧
      ∃ vals : List Lane, (s.mCompute q 0).tiles = [(q.tile, vals)] ∧ vals.length = 4096 ∧
        ∀ (i j x y : Nat), i < 64 → j < 64 → a[64 * i + j]? = some x → b[64 * i + m.col]? = some y →
          (m.mode = 0 → vals[64 * i + j]? = some (BitVec.ofNat 32 (fp32.result ((fp32.decode x).mul (fp32.decode y))).1)) ∧
          (m.mode = 2 → vals[64 * i + j]? = some (BitVec.ofNat 32 (fp32.result ((fp32.decode x).div (fp32.decode y))).1)) ∧
          (m.mode = 1 → vals[64 * i + j]? = some (BitVec.ofNat 32 (exp2V ((fp32.decode x).sub (fp32.decode y)).1).1))) ∧
    (∀ m, q.op = .mrowmax m ∨ q.op = .mrowsum m → m.col < 64 → (s.mCompute q 0).panes = [] ∧
      ∃ vals : List Lane, (s.mCompute q 0).tiles = [(q.tile, vals)] ∧ vals.length = 4096 ∧
        ∀ (i j : Nat), i < 64 → j < 64 → j ≠ m.col → vals[64 * i + j]? = (d[64 * i + j]?).map (BitVec.ofNat 32))) ∧
  (∀ (T : Team) (t : Nat), NMap.get false T.tvalid t = false → T.tileAt t = List.replicate 4096 0) ∧
  (∀ (T : Team) (t u : Nat) (vals : List Lane), vals.length = 4096 →
    (T.setTile t vals).tileAt u = (if u = t then vals.map (·.toNat) else T.tileAt u) ∧ NMap.get false (T.setTile t vals).tvalid t = true)) ∧
  (∀ (acc : Nat) (f : Flags) (a w : List Nat), acc < 2 ^ 32 →
    (mmaStepInt (acc, f) a w).1 = (BitVec.ofInt 32 (max (-2147483648) (min 2147483647
      ((BitVec.ofNat 32 acc).toInt + ((a.zip w).map (fun q => (BitVec.ofNat 8 q.1).toInt * (BitVec.ofNat 8 q.2).toInt)).sum)))).toNat)

/-- R263, R264, R269 to R273, R308: an engine command whose checks pass enters the D queue of its team with the addresses its operands
name, a DCOPY also with a pane handle for its source: it starts no earlier than 16 cycles later and after the commands it conflicts with;
the shutters of its panes close; its promise goes to its register. Memory and every other register are as they were. Where a check fails
it takes the first of its traps, and where sixteen commands wait its bundle stalls (R309). That each engine of a core takes its commands
one after another is the model's reading (log 110). R263, R309: a command that finds sixteen commands waiting stalls its bundle. -/
def Obligations.EngineCommandsIssue : Prop :=
  ((∀ (o : OpDE) (s : State) (i : Instr) (sp n src dst : Nat) (checks : List Check), s.pS o.g = true → n = o.np + 1 →
    (i = .dcopy o ∧ sp = o.dsp ∧ src = (if o.ssp = 2 ∧ 1536 ≤ o.src then (s.aR (o.src % 64)).toNat else s.deArg 0 o.ssp o.src) ∧
      dst = s.deArg 1 o.dsp o.dst ∧
      checks = globalAlign o.ssp src ++ (if o.ssp = 2 ∧ 1536 ≤ o.src then [] else s.deChecks o.ssp src n) ++ globalAlign o.dsp dst ++
        s.deChecks o.dsp dst n ++ s.regCheck (o.mod == 1 && badDescReg ((s.aR o.aux).toNat % 2 ^ 32) ||
          (knownPairs (s.knownRuns o src dst ((s.aR o.aux).toNat % 2 ^ 29))).any noPath)) ∨
    (i = .dcopy2 o ∧ sp = o.dsp ∧ src = s.deArg 0 o.ssp o.src ∧ dst = s.deArg 1 o.dsp o.dst ∧
      checks = s.deChecks o.ssp src n ++ s.deChecks o.dsp dst n ++ s.regCheck (badGeom (s.aR o.aux).toNat n)) ∨
    (i = .dgath o ∧ sp = 2 ∧ src = s.deArg 0 0 o.src ∧ dst = s.deArg 1 2 o.dst ∧
      checks = s.deChecks 2 dst n ++ s.regCheck (badGeom (s.aR o.aux2).toNat n)) ∨
    (i = .dfill o ∧ sp = o.dsp ∧ src = 0 ∧ dst = s.deArg 1 o.dsp o.dst ∧
      checks = globalAlign o.dsp dst ++ s.deChecks o.dsp dst n ++ s.regCheck (o.mod == 1 && badDescReg ((s.aR o.aux2).toNat % 2 ^ 32))) ∨
    (i = .dtbl o ∧ sp = 2 ∧ src = s.deArg 0 2 o.src ∧ dst = s.deArg 1 2 o.dst ∧
      checks = s.deChecks 2 src n ++ s.deChecks 2 dst n) →
    (∀ e, firstTrap checks = some e → Does i s (fun t => t = s.raise e)) ∧
    (firstTrap checks = none → 16 ≤ s.dQueue (s.coreOf (teamOf s.cur)) → Does i s (fun t => t = s.block .stall)) ∧
    (firstTrap checks = none → s.dQueue (s.coreOf (teamOf s.cur)) < 16 → Does i s (fun t => Enqueued s t i src dst n (some o.pr) ∧
      ((sp = 1 ∨ sp = 2) → ∀ k, k < n → t.tm.shutter (paneItem sp (dst / 4096 + k)) ≠ .t)))) ∧
  ∀ (o : OpDR) (s : State) (i : Instr) (a : Nat) (pr : Option Nat), s.pS o.g = true →
    (i = .dtblld o ∧ a = (s.aR o.ra).toNat ∧ pr = some o.rd) ∨ ((i = .dpref o ∨ i = .dflush o) ∧ a = s.addr 0 (s.aR o.ra).toNat ∧ pr = none) →
    (i = .dtblld o → a % 32 ≠ 0 → Does i s (fun t => t = s.raise { prio := 80, code := 0x0A, tinfo := BitVec.ofNat 64 a })) ∧
    ((i = .dtblld o → a % 32 = 0) →
      (s.dQueue (s.coreOf (teamOf s.cur)) < 16 → Does i s (fun t => Enqueued s t i a 0 1 pr)) ∧
      (16 ≤ s.dQueue (s.coreOf (teamOf s.cur)) → Does i s (fun t => t = s.block .stall)))) ∧
  (∀ (o : OpDR) (s : State), s.pS o.g = true → 16 ≤ s.dQueue (s.coreOf (teamOf s.cur)) →
    Does (.dpref o) s (fun t => t = s.block .stall) ∧ Does (.dflush o) s (fun t => t = s.block .stall))

/-- R112, R277: SHUT closes its panes and gives the handle of the first to its register; OPENP of panes that no command names and no
handle reads opens them, and its mode sets or clears their discard marks; where a command names one of them or a handle reads it, it
enters the D queue as a command. A check that fails takes its trap; an OPENP of a pane that has not come back after a resume waits for it;
that OPENP traps on no closed shutter is the model's reading (log 48). -/
def Obligations.ShutAndOpen : Prop :=
  ∀ (o : OpDE) (s : State) (a n : Nat), s.pS o.g = true → (o.dsp = 1 ∨ o.dsp = 2) → n = o.np + 1 → a = s.deArg 1 o.dsp o.dst →
    (∀ e, firstTrap (s.deChecks o.dsp a n) = some e → Does (.shut o) s (fun t => t = s.raise e)) ∧
    (firstTrap (s.deChecks o.dsp a n) = none → Does (.shut o) s (fun t => t.mem = s.mem ∧ t.cores = s.cores ∧
      { t.st with a := s.st.a } = s.st ∧ { t.tm with shut := s.tm.shut } = s.tm ∧
      (∀ k, t.tm.shutter k = if ∃ j, j < n ∧ k = paneItem o.dsp (a / 4096 + j) then .shut else s.tm.shutter k) ∧
      ∀ r, aNow t r = if r = o.pr then BitVec.ofNat 64 (s.tm.lh % 2 ^ 32 * 2 ^ 32 + s.tm.idx % 256 * 2 ^ 24 + (o.dsp - 1) * 1024 + a / 4096 % 1024)
        else aNow s r)) ∧
    (∀ e, firstTrap (s.paneArgCheck o.dsp a n) = some e → Does (.openp o) s (fun t => t = s.raise e)) ∧
    (firstTrap (s.paneArgCheck o.dsp a n) = none → ∀ j, j < n → s.rt.absent (paneItem o.dsp (a / 4096 + j)) = true →
      (∀ k, k < j → s.rt.absent (paneItem o.dsp (a / 4096 + k)) = false) →
      Does (.openp o) s (fun t => t = s.block (.place (paneItem o.dsp (a / 4096 + j))))) ∧
    (firstTrap (s.paneArgCheck o.dsp a n) = none → (∀ j, j < n → s.rt.absent (paneItem o.dsp (a / 4096 + j)) = false) →
      ((∀ j, j < n → s.tm.named (paneItem o.dsp (a / 4096 + j)) = false ∧ s.handleRead (teamOf s.cur) (paneItem o.dsp (a / 4096 + j)) = false) →
        Does (.openp o) s (fun t => OnlyTeam s t ∧ { t.tm with shut := s.tm.shut, pdisc := s.tm.pdisc } = s.tm ∧
          (∀ k, t.tm.shutter k = if ∃ j, j < n ∧ k = paneItem o.dsp (a / 4096 + j) then .t else s.tm.shutter k) ∧
          ∀ k, NMap.get false t.tm.pdisc k = if (∃ j, j < n ∧ k = paneItem o.dsp (a / 4096 + j)) ∧ (o.aux2 = 1 ∨ o.aux2 = 2)
            then o.aux2 == 1 else NMap.get false s.tm.pdisc k)) ∧
      ((∃ j, j < n ∧ (s.tm.named (paneItem o.dsp (a / 4096 + j)) = true ∨ s.handleRead (teamOf s.cur) (paneItem o.dsp (a / 4096 + j)) = true)) →
        (s.dQueue (s.coreOf (teamOf s.cur)) < 16 → Does (.openp o) s (fun t => Enqueued s t (.openp o) 0 a n none ∧ t.tm.shut = s.tm.shut)) ∧
        (16 ≤ s.dQueue (s.coreOf (teamOf s.cur)) → Does (.openp o) s (fun t => t = s.block .stall))))

/-- R111, R265: a command that may be performed completes: it leaves its team's list; one that may not yet be stays as it is. A fill of W
or X panes gives every byte of them the pattern of its register, the lowest byte first, and changes no byte of device memory; with MOD 1
it gives them its descriptor (R273). R111, R265: a command that may be performed ends as its run leaves it. R278, R419: the panes of a
handle are found where its launch's team is bound, the panes lie in its quota and SHUT closed them, and also where the read began before a
swap whose spill has not moved them; the reader's command else posts error 0x11. R91, R101, R111: an engine reads a unit of a page of
normal memory in GDDR7 as the bytes published at .dev when its command was issued, or later ones whole in each aligned 8 bytes; it writes
the unit's bytes in order, and they are published when the command ends. A page that cannot be reached posts 0x10 or 0x11, uncorrectable
data 0x12, and then nothing of the unit is written. R274, R275: a command of DTBL gives element e of its destination run the value of its
table at element e of its source run, in BF16 or FP32, and the panes it writes their descriptor; the conditions of errors 0x15 and 0x16
write nothing, 0x16 coming before a count of 0 (log 129). A DTBLLD fills its slot from a header that holds none of the faults, and else
leaves it empty. A table gives t's segment its line, its edges their rule, and a NaN the canonical NaN. R72, R269, R270: a DCOPY between
panes copies data, margins and descriptors; with MOD 1 it converts the elements that both sides hold, block by block, to the descriptor of
its register, from the panes as they were, so that a pane can be retagged in place; a pair without a path posts 0x11 (logs 124, 130).
R265, R269 to R273: a DCOPY between global memory, or between it and tiles, moves raw bytes in ascending units of 256, a DFILL of global
memory writes them so, and of tiles fills them and clears their void flag; a DCOPY from global memory to panes with MOD 0 gives each pane
its page's attributes, and its bytes as they are; DCOPY2 and DGATH move rows; a unit that faults, and those after it, stay as they were.
R112, R276, R277, R304: an OPENP performed as a command sets or clears the discard marks of its panes; a DPREF changes no byte and posts
no error; a DFLUSH drops the sectors of its range from the block cache, or with .keep writes them back only, and posts the error of the
first page that it cannot reach. -/
def Obligations.EngineCommandsComplete : Prop :=
  (∀ (team cmd : Nat) (bad : Option Nat) (s : State) (c : Cmd), (s.team team).cmds.find? (fun c => c.id == cmd) = some c →
    (c.isRing = true ∨ s.engineReady team c = false → Does (.engineCompletion team { cmd := cmd, bad := bad }) s (fun u => u = s)) ∧
    (c.isRing = false → s.engineReady team c = true →
      Does (.engineCompletion team { cmd := cmd, bad := bad }) s (fun u => ∀ d ∈ (u.team team).cmds, d.id ≠ cmd) ∧
      (∀ o, c.op = .dfill o → (o.dsp = 1 ∨ o.dsp = 2) → c.dst % 4096 = 0 →
        Does (.engineCompletion team { cmd := cmd, bad := bad }) s (fun u => u.mem = s.mem ∧ u.cycle = max s.cycle c.due ∧
          (∀ k, NMap.get 0 (u.team team).desc k =
            if o.mod = 1 ∧ ∃ j, j < o.np + 1 ∧ k = paneItem o.dsp (c.dst / 4096 + j) then c.aux2.toNat % 2 ^ 29
            else NMap.get 0 (s.team team).desc k) ∧
          (∀ k, k < 4096 * (o.np + 1) →
            NMap.get 0 (u.team team).pane (byteKey o.dsp (c.dst + k)) = BitVec.ofNat 8 (c.aux.toNat / 256 ^ (k % 8))) ∧
          ∀ j, (j < byteKey o.dsp c.dst ∨ byteKey o.dsp c.dst + 4096 * (o.np + 1) ≤ j) →
            NMap.get 0 (u.team team).pane j = NMap.get 0 (s.team team).pane j)))) ∧
  ((∀ (team : Nat) (bad : Option Nat) (s : State) (c : Cmd), (s.team team).cmds.find? (fun d => d.id == c.id) = some c →
    c.isRing = false → s.engineReady team c = true →
    Does (.engineCompletion team { cmd := c.id, bad := bad }) s (fun u => Ended u team c (EngRun.perform (runOf s team c bad) c))) ∧
  ∀ (r : EngRun) (o : OpDE) (c : Cmd), c.op = .dcopy o → r.err = none →
    (c.handle = none → r.s.dcopySource r.team o c = some (r.s.team r.team, deItems o.ssp c.src c.n)) ∧
    ∀ lh idx buf pane, c.handle = some (lh, idx, buf, pane) →
      (∀ u, r.s.handleTeam lh idx = some u →
        ((r.s.team u).status = .bound ∨ ((r.s.team u).status = .saved ∨ (r.s.team u).status = .loading) ∧ c.start ≤ (r.s.team u).since ∧
          ∀ k, k < c.n → paneItem buf (pane + k) ∈ (r.s.team u).toSpill) →
        pane + c.n ≤ (r.s.team u).panes buf → (∀ k, k < c.n → (r.s.team u).shutter (paneItem buf (pane + k)) = .shut) →
        r.s.dcopySource r.team o c = some (r.s.team u, (List.range c.n).map (fun k => paneItem buf (pane + k)))) ∧
      ((r.s.handleTeam lh idx = none ∨ ∃ u, r.s.handleTeam lh idx = some u ∧ ((r.s.team u).status ∉ [.bound, .saved, .loading] ∨
          (r.s.team u).panes buf < pane + c.n ∨ ∃ k, k < c.n ∧ (r.s.team u).shutter (paneItem buf (pane + k)) ≠ .shut)) →
        Stops r (EngRun.perform r c) 0x11 pane 0)) ∧
  (∀ (r r1 : EngRun) (va n pa ty leaf : Nat) (bs : List Byte), r.err = none → 0 < n → bs.length = n → va % 65536 + n ≤ 65536 →
    (r.translate 4 va .read = (r1, some (pa, ty, leaf)) → targetOf pa = .dram → ty < 2 →
      ((∀ a, r.bad = some a → a < va ∨ va + n ≤ a) → (r.readAt va n).1.err = none ∧ (r.readAt va n).1.T = r1.T ∧
        (r.readAt va n).2 = ((r1.s.touchRange r1.asid va pa leaf n false).engineBytes r1.pos pa n).2 ∧
        ((∀ p ∈ r1.s.log, ∀ q ∈ p.cells, q.1 < pa ∨ pa + n ≤ q.1) →
          ∀ k, k < n → (r.readAt va n).2.getD k 0 = NMap.get Memory.unlisted (r1.s.touchRange r1.asid va pa leaf n false).mem (pa + k))) ∧
      (∀ a, r.bad = some a → va ≤ a → a < va + n → (r.readAt va n).1.err = some (0x12, a % 2 ^ 32, a) ∧ (r.readAt va n).2 = [])) ∧
    (r.translate 4 va .write = (r1, some (pa, ty, leaf)) → targetOf pa = .dram → ty < 2 →
      (r.writeAt va bs).err = none ∧ (r.writeAt va bs).glob = r1.glob ++ (List.range n).map (fun k => (pa + k, bs.getD k 0))) ∧
    (∀ kind code, (code = 0x10 ∧ (r.s.access r.T.launch r.asid 0 va kind).2 = .page ∨ code = 0x11 ∧ (r.s.access r.T.launch r.asid 0 va kind).2 = .prot) →
      va < 2 ^ 56 →
      (kind = .read → (r.readAt va n).1.err = some (code, va % 2 ^ 32, va) ∧ (r.readAt va n).2 = []) ∧
      (kind = .write → (r.writeAt va bs).err = some (code, va % 2 ^ 32, va) ∧ (r.writeAt va bs).glob = r.glob))) ∧
  ((∀ (r q : EngRun) (o : OpDE) (c : Cmd) (e0 n sp dp sf w of per : Nat), c.op = .dtbl o → r.err = none → q = EngRun.perform r c →
    n = c.aux.toNat % 2 ^ 32 → e0 = c.aux.toNat / 2 ^ 32 → sp = c.src / 4096 → dp = c.dst / 4096 →
    sf = dFmt (NMap.get 0 r.T.desc (1056 + sp)) → w = (if sf = 1 then 4 else 2) →
    (o.aux2 / 4 % 2 = 1 ∧ of = 1 ∧ per = 1024 ∨ o.aux2 / 4 % 2 = 0 ∧ of = 2 ∧ per = 2048) →
    (NMap.get none r.T.tbl (o.aux2 % 4) = none ∨ (sf ≠ 1 ∧ sf ≠ 2) ∨ (∃ k, k ≤ o.np ∧ (dFmt (NMap.get 0 r.T.desc (1056 + sp + k)) ≠ sf ∨
      dTag (NMap.get 0 r.T.desc (1056 + sp + k)) ≠ 0)) → Stops r q 0x16 dp 0) ∧
    ∀ T, NMap.get none r.T.tbl (o.aux2 % 4) = some T → (sf = 1 ∨ sf = 2) →
      (∀ k, k ≤ o.np → dFmt (NMap.get 0 r.T.desc (1056 + sp + k)) = sf ∧ dTag (NMap.get 0 r.T.desc (1056 + sp + k)) = 0) →
      (n = 0 → q = r) ∧
      (n ≠ 0 → (o.np + 1) * (4096 / w) < e0 + n ∨ (o.np + 1) * per < e0 + n → Stops r q 0x15 dp 0) ∧
      (n ≠ 0 → e0 + n ≤ (o.np + 1) * (4096 / w) → e0 + n ≤ (o.np + 1) * per → ∀ y : Nat → Nat × Flags,
        (∀ j, y j = T.eval (if of = 1 then fp32 else bf16) ((if sf = 1 then fp32 else bf16).decode
          (littleEndian (fun k => NMap.get 0 r.T.pane (byteKey 2 (4096 * sp + (e0 + j) * w + k))) w))) →
        q.err = none ∧ q.s = r.s ∧ q.glob = r.glob ∧ { q.T with pane := r.T.pane, desc := r.T.desc } = r.T ∧
        (∀ j k, j < n → k < 4096 / per → NMap.get 0 q.T.pane (byteKey 2 (4096 * dp + (e0 + j) * (4096 / per) + k)) = BitVec.ofNat 8 ((y j).1 / 256 ^ k)) ∧
        (∀ k, k < byteKey 2 (4096 * dp + e0 * (4096 / per)) ∨ byteKey 2 (4096 * dp + (e0 + n) * (4096 / per)) ≤ k →
          NMap.get 0 q.T.pane k = NMap.get 0 r.T.pane k) ∧
        (∀ k, NMap.get 0 q.T.desc k = if 1056 + dp + e0 / per ≤ k ∧ k ≤ 1056 + dp + (e0 + n - 1) / per then mkDesc of 0 0 0 else NMap.get 0 r.T.desc k) ∧
        ∀ b, q.flags.getLsbD b = true ↔ r.flags.getLsbD b = true ∨ ∃ j, j < n ∧ (y j).2.getLsbD b = true)) ∧
  (∀ (r r0 r1 r2 : EngRun) (o : OpDR) (c : Cmd) (hd es : List Byte) (f : Nat → Nat → Nat) (bad : Prop), c.op = .dtblld o → r.err = none →
    r0 = { r with T := { r.T with tbl := NMap.set none r.T.tbl (o.sub % 4) none } } → r0.readAt c.src 32 = (r1, hd) →
    (∀ k n, f k n = littleEndian (fun i => hd.getD (k + i) 0) n) →
    (bad ↔ 256 ≤ f 6 2 ∨ f 5 1 % 4 = 3 ∨ f 5 1 / 4 % 4 = 3 ∨ (BitVec.ofNat 8 (f 4 1)).toInt < -32 ∨ 32 < (BitVec.ofNat 8 (f 4 1)).toInt ∨
      (fp32.decode (f 0 4)).finite = false ∨ 16 ≤ f 5 1 ∨ f 16 16 ≠ 0) →
    ((EngRun.perform r c).err ≠ none → NMap.get none (EngRun.perform r c).T.tbl (o.sub % 4) = none) ∧
    (r1.err ≠ none → EngRun.perform r c = r1) ∧
    (r1.err = none → hd.length = 32 → (bad → Stops r1 (EngRun.perform r c) 0x16 0 0) ∧
      (¬ bad → r1.readAt (c.src + 32) (8 * (f 6 2 + 1)) = (r2, es) → (r2.err ≠ none → EngRun.perform r c = r2) ∧
        (r2.err = none → es.length = 8 * (f 6 2 + 1) → ∃ T, NMap.get none (EngRun.perform r c).T.tbl (o.sub % 4) = some T ∧
          T.x0 = f 0 4 ∧ T.sh = (BitVec.ofNat 8 (f 4 1)).toInt ∧ T.lomode = f 5 1 % 4 ∧ T.himode = f 5 1 / 4 % 4 ∧ T.clo = f 8 4 ∧ T.chi = f 12 4 ∧
          T.segs.length = f 6 2 + 1 ∧ ∀ i, i < f 6 2 + 1 → T.segs.getD i (0, 0) =
            (littleEndian (fun k => es.getD (8 * i + k) 0) 4, littleEndian (fun k => es.getD (8 * i + 4 + k) 0) 4))))) ∧
  (∀ (T : Table) (f : FFormat) (q : Bool), T.eval f (.nan q) = (f.cnan, if q then fNV else 0)) ∧
  (∀ (T : Table) (f : FFormat) (i n d : Nat) (s : Bool), 0 < d → T.line f i (.num s n d) = f.result
    (((FVal.num s n d).sub (ofInt i)).1.fma (fp32.decode (T.segs.getD i (0, 0)).2) (fp32.decode (T.segs.getD i (0, 0)).1))) ∧
  (∀ (T : Table) (f : FFormat) (x t : FVal) (m e : Bool × Nat), x.isNan = false → t = (x.sub (fp32.decode T.x0)).1.scale2 T.sh →
    (fp32.decode T.x0).finite = true → 0 < T.segs.length → (m = (true, T.lomode) ∨ m = (false, T.himode)) →
    (e = if m.1 then (true, T.clo) else (false, T.chi)) →
    (m.1 = true → t = .inf true ∨ ∃ n d, t = .num true n d ∧ 0 < n ∧ 0 < d) →
    (m.1 = false → t = .inf false ∨ ∃ n d, t = .num false n d ∧ 0 < d ∧ T.segs.length * d ≤ n) →
    (m.2 = 0 → T.eval f x = f.round (fp32.decode e.2)) ∧ (m.2 = 1 → T.eval f x = f.round x) ∧
    (m.2 = 2 → T.eval f x = T.line f (if m.1 then 0 else T.segs.length - 1) t)) ∧
  ∀ (T : Table) (f : FFormat) (x : FVal) (s : Bool) (n d : Nat), 0 < d → x.isNan = false →
    (x.sub (fp32.decode T.x0)).1.scale2 T.sh = .num s n d → (s = false ∨ n = 0) → n / d < T.segs.length → T.eval f x = T.line f (n / d) (.num s n d)) ∧
  (∀ (r q : EngRun) (o : OpDE) (c : Cmd) (U : Team) (ss : List Nat) (dst : Nat → Nat), c.op = .dcopy o → r.err = none → q = EngRun.perform r c →
    (o.ssp = 1 ∨ o.ssp = 2) → (o.dsp = 1 ∨ o.dsp = 2) → r.s.dcopySource r.team o c = some (U, ss) → ss.length = o.np + 1 →
    (∀ k, dst k = paneItem o.dsp (c.dst / 4096 + k)) → c.dst / 4096 + o.np < 1024 →
    (o.mod = 0 → q.err = none ∧ q.s = r.s ∧ q.flags = r.flags ∧
      (∀ k, k ≤ o.np → NMap.get 0 q.T.desc (dst k) = NMap.get 0 U.desc (ss.getD k 0) ∧
        (∀ j, j < 4096 → NMap.get 0 q.T.pane (paneBase (dst k) + j) = NMap.get 0 U.pane (paneBase (ss.getD k 0) + j)) ∧
        ∀ j, j < 512 → NMap.get 0 q.T.margin (512 * dst k + j) = NMap.get 0 U.margin (512 * ss.getD k 0 + j)) ∧
      (∀ i, (∀ k, k ≤ o.np → i ≠ dst k) → NMap.get 0 q.T.desc i = NMap.get 0 r.T.desc i ∧
        ∀ j, j < 512 → NMap.get 0 q.T.margin (512 * i + j) = NMap.get 0 r.T.margin (512 * i + j)) ∧
      ∀ j, (∀ k, k ≤ o.np → j < paneBase (dst k) ∨ paneBase (dst k) + 4096 ≤ j) → NMap.get 0 q.T.pane j = NMap.get 0 r.T.pane j) ∧
    (o.mod = 1 → ∀ a d pa pd E B U0 : Nat, d = c.aux.toNat % 2 ^ 29 → (∀ i ∈ ss, NMap.get 0 U.desc i = a) → legalDesc a = true → legalDesc d = true →
      pa = paneElems (dFmt a) → pd = paneElems (dFmt d) → E = (o.np + 1) * min pa pd →
      (B = max (max (scaleLen (dSgeo a)) (tagBlock (dTag a))) (max (scaleLen (dSgeo d)) (tagBlock (dTag d)))) →
      U0 = (if B ≤ 1 then 2048 / elemBits (dFmt d) else B) →
      (convertible a d = false → Stops r q 0x11 (c.dst / 4096) 0) ∧
      (convertible a d = true → ∀ out : Nat → List Nat × List Nat × Flags,
        (∀ j, out j = r.s.convertList a d
          (elemsOf (dFmt a) (NMap.getList 0 U.pane (paneBase (ss.getD (U0 * j / pa) 0) + U0 * j % pa * elemBits (dFmt a) / 8) (U0 * elemBits (dFmt a) / 8)))
          (if scaleLen (dSgeo a) = 0 then [] else (List.range (U0 / scaleLen (dSgeo a))).map (fun x => littleEndian (fun i => NMap.get 0 U.margin
            (512 * ss.getD (U0 * j / pa) 0 + 2 * (U0 * j % pa / scaleLen (dSgeo a) + x) + i)) 2))) →
        q.err = none ∧
        (∀ j, j < E / U0 → (∀ k, k < U0 * elemBits (dFmt d) / 8 →
            NMap.get 0 q.T.pane (paneBase (dst (U0 * j / pd)) + U0 * j % pd * elemBits (dFmt d) / 8 + k) = (bytesOf (dFmt d) (out j).1).getD k 0) ∧
          ∀ x i, scaleLen (dSgeo d) ≠ 0 → x < U0 / scaleLen (dSgeo d) → i < 2 →
            NMap.get 0 q.T.margin (512 * dst (U0 * j / pd) + 2 * (U0 * j % pd / scaleLen (dSgeo d) + x) + i) =
              BitVec.ofNat 8 ((out j).2.1.getD x 0 / 256 ^ i)) ∧
        (∀ k, NMap.get 0 q.T.desc k = if ∃ j, j < E ∧ j * pd < E ∧ k = dst j then d else NMap.get 0 r.T.desc k) ∧
        (∀ j, (∀ k, k * pd < E → j < paneBase (dst k) ∨ paneBase (dst k) + 4096 ≤ j) → NMap.get 0 q.T.pane j = NMap.get 0 r.T.pane j) ∧
        ∀ b, q.flags.getLsbD b = true ↔ r.flags.getLsbD b = true ∨ ∃ j, j < E / U0 ∧ (out j).2.2.getLsbD b = true))) ∧
  ((∀ (r : EngRun) (o : OpDE) (c : Cmd) (U : Team) (ss : List Nat) (step : EngRun → Nat → EngRun), r.err = none →
    (c.op = .dcopy o ∧ o.ssp = 0 ∧ o.dsp = 0 ∧ (∀ q j, step q j = if (q.readAt (c.src + 256 * j) 256).1.err = none
      then (q.readAt (c.src + 256 * j) 256).1.writeAt (c.dst + 256 * j) (q.readAt (c.src + 256 * j) 256).2 else (q.readAt (c.src + 256 * j) 256).1) ∨
     c.op = .dfill o ∧ o.dsp = 0 ∧ (∀ q j, step q j = q.writeAt (c.dst + 256 * j) ((List.range 256).map (fun k => BitVec.ofNat 8 (c.aux.toNat / 256 ^ (k % 8)))))) →
    r.s.dcopySource r.team o c = some (U, ss) ∨ c.op = .dfill o →
    EngRun.perform r c = (List.range (16 * (o.np + 1))).foldl (fun q j => if q.err = none then step q j else q) r) ∧
  (∀ (r : EngRun) (o : OpDE) (c : Cmd) (U : Team) (ss : List Nat), c.op = .dcopy o → r.err = none → r.s.dcopySource r.team o c = some (U, ss) →
    (o.ssp = 0 → o.dsp = 3 → EngRun.perform r c = (List.range (64 * (o.np + 1))).foldl (fun q j => if q.err = none then
      (if (q.readAt (c.src + 256 * j) 256).1.err = none then { (q.readAt (c.src + 256 * j) 256).1 with
        T := (q.readAt (c.src + 256 * j) 256).1.T.setTileBytes (c.dst + j / 64) (256 * (j % 64)) (q.readAt (c.src + 256 * j) 256).2 }
       else (q.readAt (c.src + 256 * j) 256).1) else q) r) ∧
    (o.ssp = 3 → o.dsp = 0 → EngRun.perform r c = (List.range (64 * (o.np + 1))).foldl (fun q j => if q.err = none then
      q.writeAt (c.dst + 256 * j) (U.tileBytes (c.src + j / 64) (256 * (j % 64)) 256) else q) r)) ∧
  (∀ (T : Team) (t off n : Nat) (bs : List Byte), off % 4 = 0 → n % 4 = 0 → bs.length = n → off + n ≤ 16384 →
    (∀ k, k < n → (T.tileBytes t off n).getD k 0 =
      if NMap.get false T.tvalid t = true then BitVec.ofNat 8 ((NMap.get 0 T.tile (4096 * t + (off + k) / 4)).toNat / 256 ^ ((off + k) % 4)) else 0) ∧
    NMap.get false (T.setTileBytes t off bs).tvalid t = true ∧
    ∀ k, NMap.get 0 (T.setTileBytes t off bs).tile k = if 4096 * t + off / 4 ≤ k ∧ k < 4096 * t + (off + n) / 4
      then BitVec.ofNat 32 (littleEndian (fun i => bs.getD (4 * (k - 4096 * t) - off + i) 0) 4) else NMap.get 0 T.tile k) ∧
  (∀ (r : EngRun) (o : OpDE) (c : Cmd), c.op = .dfill o → r.err = none → o.dsp = 3 → (EngRun.perform r c).s = r.s ∧
    (∀ t, NMap.get false (EngRun.perform r c).T.tvalid t = if c.dst ≤ t ∧ t ≤ c.dst + o.np then true else NMap.get false r.T.tvalid t) ∧
    ∀ k, NMap.get 0 (EngRun.perform r c).T.tile k = if 4096 * c.dst ≤ k ∧ k < 4096 * (c.dst + o.np + 1)
      then BitVec.ofNat 32 (c.aux.toNat / 2 ^ (32 * (k % 2))) else NMap.get 0 r.T.tile k) ∧
  (∀ (r q : EngRun) (o : OpDE) (c : Cmd) (t : Stretch) (d m i : Nat), c.op = .dcopy o → c.handle = none → r.err = none → o.ssp = 0 → (o.dsp = 1 ∨ o.dsp = 2) →
    o.mod = 0 → o.np = 0 → i = paneItem o.dsp (c.dst / 4096) → c.dst / 4096 < 1024 →
    d = attrDesc (((r.s.pageAttr r.asid c.src).map (·.1)).getD 0) → m = paneElems (dFmt d) → r.s.globalRun r.asid c.src 0 m 40 = [t] → t.there = true →
    t.desc = d → legalDesc d = true → q = EngRun.perform r c → q.err = none →
    t.index % max (max (scaleLen (dSgeo d)) (tagBlock (dTag d))) 1 = 0 ∧ NMap.get 0 q.T.desc i = d ∧ q.flags = r.flags ∧
      (∀ k, k ≠ i → NMap.get 0 q.T.desc k = NMap.get 0 r.T.desc k) ∧
      (∀ j, j < paneBase i ∨ paneBase i + 4096 ≤ j → NMap.get 0 q.T.pane j = NMap.get 0 r.T.pane j) ∧
      ∃ u : Nat → EngRun, (∀ j, (u j).asid = r.asid ∧ (u j).pos = r.pos) ∧ (u 0).s = r.s ∧
        ∀ n j, n = (if max (scaleLen (dSgeo d)) (tagBlock (dTag d)) ≤ 1 then 256 else max (scaleLen (dSgeo d)) (tagBlock (dTag d)) * elemBits (dFmt d) / 8) →
          j < 4096 / n →
          (scaleLen (dSgeo d) = 0 → (u (j + 1)).s = ((u j).readAt (t.va + n * j) n).1.s) ∧
          ∀ k, k < n → NMap.get 0 q.T.pane (paneBase i + n * j + k) = ((u j).readAt (t.va + n * j) n).2.getD k 0) ∧
  (∀ (r q : EngRun) (o : OpDE) (c : Cmd) (g rb rows pane : Nat) (va : Nat → Nat), c.op = .dcopy2 o → r.err = none → o.ssp = 0 → (o.dsp = 1 ∨ o.dsp = 2) →
    q = EngRun.perform r c → g = c.aux.toNat → rb = g % 65536 → rows = g / 65536 % 65536 → pane = c.dst / 4096 →
    (∀ j, va j = (((c.src : Int) + (BitVec.ofNat 32 (g / 2 ^ 32)).toInt * j) % (2 ^ 64 : Int)).toNat) →
    (∀ j, j < rows → (∀ i, i < j → r.s.badRow r.asid (va i) rb (fun a b v m => dSgeo a != 0 || !rowOnBlocks a b v m (tagBlock (dTag a))) = false) →
      r.s.badRow r.asid (va j) rb (fun a b v m => dSgeo a != 0 || !rowOnBlocks a b v m (tagBlock (dTag a))) = true → Stops r q 0x15 pane (va j)) ∧
    (0 < rows → 0 < rb → q.err = none →
      (∃ u : Nat → EngRun, (∀ j, (u j).asid = r.asid ∧ (u j).pos = r.pos) ∧ (u 0).s = r.s ∧
        (∀ j, j < rows → (u (j + 1)).s = ((u j).readAt (va j) rb).1.s ∧
          ∀ k, k < rb → NMap.get 0 q.T.pane (byteKey o.dsp (4096 * pane + rb * j + k)) = ((u j).readAt (va j) rb).2.getD k 0) ∧
        ∀ a b j, (u rows).s.pageAttr r.asid c.src = some (a, b) → j * 4096 < rb * rows →
          NMap.get 0 q.T.desc (paneItem o.dsp (pane + j)) = mkDesc (dFmt a) 0 (dTag a) (dCb a)) ∧
      (∀ j, j < byteKey o.dsp (4096 * pane) ∨ byteKey o.dsp (4096 * pane + rb * rows) ≤ j → NMap.get 0 q.T.pane j = NMap.get 0 r.T.pane j) ∧
      ∀ k, (¬ ∃ j, j * 4096 < rb * rows ∧ k = paneItem o.dsp (pane + j)) → NMap.get 0 q.T.desc k = NMap.get 0 r.T.desc k)) ∧
  (∀ (r : EngRun) (o : OpDE) (c : Cmd) (g rb rows pane : Nat) (va : Nat → Nat), c.op = .dcopy2 o → r.err = none → (o.ssp = 1 ∨ o.ssp = 2) → o.dsp = 0 →
    g = c.aux.toNat → rb = g % 65536 → rows = g / 65536 % 65536 → pane = c.src / 4096 →
    (∀ j, va j = (((c.dst : Int) + (BitVec.ofNat 32 (g / 2 ^ 32)).toInt * j) % (2 ^ 64 : Int)).toNat) →
    (∀ j, j < rows → r.s.badRow r.asid (va j) rb (fun a b v m => dSgeo a != 0 || !rowOnBlocks a b v m (tagBlock (dTag a))) = false) →
    EngRun.perform r c = (if (BitVec.ofNat 32 (g / 2 ^ 32)).toInt < 0 then (List.range rows).reverse else List.range rows).foldl (fun q j =>
      if q.err = none then q.writeAt (va j) ((List.range rb).map (fun k => NMap.get 0 r.T.pane (byteKey o.ssp (4096 * pane + rb * j + k)))) else q) r) ∧
  ∀ (r q : EngRun) (o : OpDE) (c : Cmd) (g rb rows pane : Nat), c.op = .dgath o → r.err = none → q = EngRun.perform r c → q.err = none →
    g = c.aux2.toNat → rb = g % 65536 → rows = g / 65536 % 65536 → pane = c.dst / 4096 → 0 < rows → 0 < rb →
    ∃ (u w : Nat → EngRun) (va : Nat → Nat) (a : Nat), (u 0) = r ∧
      (∀ j, j < rows → (u (j + 1)) = ((u j).readAt ((c.aux.toNat + 4 * j) % 2 ^ 64) 4).1 ∧
        va j = (((c.src : Int) + (BitVec.ofNat 32 (g / 2 ^ 32)).toInt *
          littleEndian (fun k => ((u j).readAt ((c.aux.toNat + 4 * j) % 2 ^ 64) 4).2.getD k 0) 4) % (2 ^ 64 : Int)).toNat) ∧
      a = (((u rows).s.pageAttr r.asid (va 0)).map (·.1)).getD 0 ∧ legalDesc (attrDesc a) = true ∧
      (∀ j, (w j).asid = r.asid ∧ (w j).pos = r.pos) ∧ (w 0).s = (u rows).s ∧
      (∀ j, j < rows → (w (j + 1)).s = ((w j).gatherRow (attrDesc a) (va j) rb).1.s ∧
        (∀ k, k < rb → NMap.get 0 q.T.pane (byteKey 2 (4096 * pane + rb * j + k)) = ((w j).gatherRow (attrDesc a) (va j) rb).2.1.getD k 0) ∧
        ∀ x i l e, l = scaleLen (dSgeo a) → l ≠ 0 → e = j * (rb * 8 / elemBits (dFmt a)) + x * l → x < rb * 8 / elemBits (dFmt a) / l → i < 2 →
          NMap.get 0 q.T.margin (512 * (1056 + pane + e / paneElems (dFmt a)) + 2 * (e % paneElems (dFmt a) / l) + i) =
            ((w j).gatherRow (attrDesc a) (va j) rb).2.2.getD (2 * x + i) 0) ∧
      (∀ j, j < byteKey 2 (4096 * pane) ∨ byteKey 2 (4096 * pane + rb * rows) ≤ j → NMap.get 0 q.T.pane j = NMap.get 0 r.T.pane j) ∧
      ∀ k, NMap.get 0 q.T.desc k = if ∃ j, j < rb * rows ∧ j * 4096 < rb * rows ∧ k = 1056 + pane + j then attrDesc a else NMap.get 0 r.T.desc k) ∧
  ((∀ (r : EngRun) (o : OpDE) (c : Cmd), c.op = .openp o → r.err = none → (EngRun.perform r c).err = none ∧ (EngRun.perform r c).s = r.s ∧
    (EngRun.perform r c).T.pane = r.T.pane ∧ (EngRun.perform r c).T.desc = r.T.desc ∧
    (∀ k, NMap.get false (EngRun.perform r c).T.pdisc k = if k ∈ c.items ∧ (o.aux2 = 1 ∨ o.aux2 = 2) then o.aux2 == 1 else NMap.get false r.T.pdisc k) ∧
    ∀ k, (EngRun.perform r c).T.shutter k = if k ∈ c.items then (if ∃ d ∈ r.T.cmds, d.id ≠ c.id ∧ k ∈ d.items then .cmd else .t) else r.T.shutter k) ∧
  (∀ (r : EngRun) (o : OpDR) (c : Cmd), c.op = .dpref o → r.err = none →
    (EngRun.perform r c).err = none ∧ (EngRun.perform r c).T = r.T ∧ (EngRun.perform r c).s.mem = r.s.mem ∧ (EngRun.perform r c).glob = r.glob) ∧
  ∀ (r q : EngRun) (o : OpDR) (c : Cmd) (lo n : Nat), c.op = .dflush o → r.err = none → q = EngRun.perform r c → lo = c.src → n = c.aux.toNat →
    (n = 0 → q = r) ∧ q.T = r.T ∧ q.s.mem = r.s.mem ∧ q.glob = r.glob ∧
    (n ≠ 0 →
      (∀ b0 ∈ r.s.cache, (b0.asid ≠ r.asid → b0.valid ≠ 0 → b0 ∈ q.s.cache) ∧
        ((∃ j, j < 16 ∧ bit b0.valid j = true ∧ (o.sub = 1 ∨ ¬ (lo < b0.vblock * 4096 + 256 * j + 256 ∧ b0.vblock * 4096 + 256 * j < lo + n))) →
          ∃ b ∈ q.s.cache, b = { b0 with valid := b.valid, dirty := b.dirty })) ∧
      (∀ b ∈ q.s.cache, b.valid ≠ 0 ∧ ∃ b0 ∈ r.s.cache, b = { b0 with valid := b.valid, dirty := b.dirty } ∧
        (b0.asid ≠ r.asid → b = b0) ∧ (b0.asid = r.asid → ∀ j, j < 16 →
          (lo < b0.vblock * 4096 + 256 * j + 256 ∧ b0.vblock * 4096 + 256 * j < lo + n →
            bit b.dirty j = false ∧ bit b.valid j = (o.sub == 1 && bit b0.valid j)) ∧
          (¬ (lo < b0.vblock * 4096 + 256 * j + 256 ∧ b0.vblock * 4096 + 256 * j < lo + n) →
            bit b.dirty j = bit b0.dirty j ∧ bit b.valid j = bit b0.valid j))) ∧
      (∀ va, lo ≤ va → (va = lo ∨ va % 65536 = 0) → va < lo + n → va < 2 ^ 56 →
        (∀ x, lo ≤ x → (x = lo ∨ x % 65536 = 0) → x < va → q.s.walk r.asid x ≠ .page ∧ q.s.walk r.asid x ≠ .prot) →
        (q.s.walk r.asid va = .page → q.err = some (0x10, va % 2 ^ 32, va)) ∧ (q.s.walk r.asid va = .prot → q.err = some (0x11, va % 2 ^ 32, va))) ∧
      ((∀ va, lo ≤ va → va < lo + n → va < 2 ^ 56 ∧ q.s.walk r.asid va ≠ .page ∧ q.s.walk r.asid va ≠ .prot) → q.err = none)))

/-- R279, R281, R282, R356: ENQ puts 64 bytes, of X on a compute core and of global memory on a supervisor core, in the strand's replay
window, for an open queue of its address space or a queue of an encoder; for another queue it takes trap 0x41, and with sixteen entries in
the window it blocks; a read of global memory waits, as a load does (R102, R107), for an acquiring atomic and for a request that acts on
its bytes. One window for all queues of a strand is the model's choice (log 131). The queue engine's acknowledgement moves the oldest
entry to its queue, and a resent entry enters once there is room; a full queue refuses it; an entry for a queue closed since is dropped.
R316: each entry charges the core one unit. The 40 cycles of an answer and the charge at issue are the model's choice (logs 49, 107). R280
to R282: DEQ takes the oldest entry of its queue into the X buffer, or on a supervisor core stores it to global memory; on an empty queue
DEQ blocks and DEQ.nb answers that it took none. A queue that is not open or not of the strand's address space takes trap 0x41. The charge
at issue is the model's choice (log 107). R282: QCTL opens a free queue for the caller's address space, closes it, sets its back-off and
reads its depth; the answer is 0, or the lowest failure code, and on a failure no queue changes: 1 for an open queue, 2 for one that is
not the caller's, 3 for a value out of range, 4 for a number above 4,095. The depth of a queue that is not the caller's reads as all ones. -/
def Obligations.Queues : Prop :=
  ((∀ (o : OpDR) (s : State) (q ea : Nat) (usable : Prop), s.pS o.g = true → isSupervisor (teamOf s.cur) = false →
    q = (s.aR o.ra).toNat → ea = s.addr 0 (s.aR o.rb).toNat →
    (usable ↔ (4080 ≤ q ∧ q < 4096) ∨ q < 4096 ∧ (s.queue q).isOpen = true ∧ (s.queue q).owner = s.tm.asid) →
    (usable → ea % 64 ≠ 0 → ea < 4194304 → PaneFree s (ea / 4096) false →
      Does (.enq o) s (fun t => t = s.raise { prio := 80, code := 0x0A, tinfo := BitVec.ofNat 64 ea })) ∧
    (ea % 64 = 0 → ea < 4194304 → PaneFree s (ea / 4096) false →
      (¬ usable → Does (.enq o) s (fun t => t = s.raise
        { prio := 101, code := 0x41, tinfo := BitVec.ofNat 64 (0xFFFF000000000000 + q) })) ∧
      (usable → 16 ≤ s.st.window.length → Does (.enq o) s (fun t => t = s.block .enq)) ∧
      (usable → s.st.window.length < 16 → Does (.enq o) s (fun t =>
        { t with strands := s.strands, cores := s.cores } = s ∧ (∀ k, k ≠ s.cur → t.strand k = s.strand k) ∧
        (∀ c, { t.core c with meter := (s.core c).meter } = s.core c) ∧
        (s.cycle, 1) ∈ (t.core (s.coreOf (teamOf s.cur))).meter ∧ { t.st with window := s.st.window } = s.st ∧
        ∃ e, t.st.window = s.st.window ++ [e] ∧ e.queue = q ∧ e.gen = (s.queue q).gen ∧ e.asid = s.tm.asid ∧ e.nacked = false ∧
          e.notBefore = s.cycle + 40 ∧ e.data = (List.range 64).map (fun i => xByte s.rt (ea + i)))))) ∧
  (∀ (o : OpDR) (s s' : State) (q ea pa leaf : Nat) (usable : Prop), s.pS o.g = true → isSupervisor (teamOf s.cur) = true →
    q = (s.aR o.ra).toNat → ea = s.addr 0 (s.aR o.rb).toNat → s.globalCheck (BitVec.ofNat 64 ea) 64 .read = (s', .ok (pa, 0, leaf)) →
    targetOf pa = .dram → pa % 64 = 0 →
    (usable ↔ (4080 ≤ q ∧ q < 4096) ∨ q < 4096 ∧ (s'.queue q).isOpen = true ∧ (s'.queue q).owner = s'.tm.asid) →
    (¬ usable → Does (.enq o) s (fun t => t = s'.raise
      { prio := 101, code := 0x41, tinfo := BitVec.ofNat 64 (0xFFFF000000000000 + q) })) ∧
    (usable → 16 ≤ s'.st.window.length → Does (.enq o) s (fun t => t = s'.block .enq)) ∧
    (usable → s'.st.window.length < 16 → s'.homesMove = true → Does (.enq o) s (fun t => t = s'.block .stall)) ∧
    (usable → s'.st.window.length < 16 → s'.st.acqOpen = true ∨ s'.st.reqAt pa 64 = true → Does (.enq o) s (fun t => t = s'.block .stall)) ∧
    (usable → s'.st.window.length < 16 → s'.homesMove = false → s'.st.acqOpen = false → s'.st.reqAt pa 64 = false →
      Does (.enq o) s (fun t => t.mem = s'.mem ∧ t.teams = s'.teams ∧ t.st.a = s'.st.a ∧
        ∃ e, t.st.window = s'.st.window ++ [e] ∧ e.queue = q ∧ e.gen = (s'.queue q).gen ∧ e.asid = s'.tm.asid ∧ e.nacked = false ∧
          (s'.log = [] → e.data = (List.range 64).map (fun i => (s'.st.ownByte (ea + i)).getD (Memory.read s'.mem (pa + i)))) ∧
          ∀ i b, i < 64 → s'.st.ownByte (ea + i) = some b → e.data[i]? = some b))) ∧
  (∀ (k : Nat) (s : State) (e : QEntry) (i : Instr), (i = .enqAck k ∧ (s.strand k).nextEntry false = some e) ∨
      (i = .enqResend k ∧ (s.strand k).nextEntry true = some e) →
    ((s.queue e.queue).isOpen = false ∨ (s.queue e.queue).gen ≠ e.gen →
      Does i s (fun t => t.mem = s.mem ∧ t.queues = s.queues ∧ t.strand k = { s.strand k with window := (s.strand k).window.erase e })) ∧
    ((s.queue e.queue).isOpen = true → (s.queue e.queue).gen = e.gen →
      ((s.queue e.queue).entries.length < (s.queue e.queue).cap → s.pooled < 2 ^ 20 →
        Does i s (fun t => t.mem = s.mem ∧ t.cycle = max s.cycle e.notBefore ∧
          t.queue e.queue = { s.queue e.queue with entries := (s.queue e.queue).entries ++ [e] } ∧
          (∀ q, q ≠ e.queue → t.queue q = s.queue q) ∧ t.strand k = { s.strand k with window := (s.strand k).window.erase e })) ∧
      ((s.queue e.queue).cap ≤ (s.queue e.queue).entries.length ∨ 2 ^ 20 ≤ s.pooled →
        Does i s (fun t => t.queues = s.queues ∧ { t.strand k with window := (s.strand k).window } = s.strand k ∧
          (t.strand k).window = (s.strand k).window.map (fun d => if d = e then
            { d with nacked := true, notBefore := max s.cycle e.notBefore + 64 * 2 ^ (s.queue e.queue).backoff } else d)))))) ∧
  ((∀ (o : OpDR) (s : State) (q ea : Nat) (usable : Prop), s.pS o.g = true → isSupervisor (teamOf s.cur) = false →
    q = (s.aR o.ra).toNat → ea = s.addr 0 (s.aR o.rb).toNat →
    (usable ↔ q < 4096 ∧ (s.queue q).isOpen = true ∧ (s.queue q).owner = s.tm.asid) →
    ea % 64 = 0 → ea < 4194304 → PaneFree s (ea / 4096) true →
    (¬ usable → ∀ i ∈ [Instr.deq o, Instr.deqNb o],
      Does i s (fun t => t = s.raise { prio := 101, code := 0x41, tinfo := BitVec.ofNat 64 (0xFFFF000000000000 + q) })) ∧
    (usable → ∀ e r, (s.queue q).entries = e :: r → e.data.length = 64 →
      Does (.deq o) s (fun t => t.mem = s.mem ∧ t.st = s.st ∧ t.queue q = { s.queue q with entries := r } ∧
        (∀ p, p ≠ q → t.queue p = s.queue p) ∧ { t.tm with pane := s.tm.pane } = s.tm ∧
        ∀ j, NMap.get 0 t.tm.pane j = if byteKey 2 ea ≤ j ∧ j < byteKey 2 ea + 64 then e.data.getD (j - byteKey 2 ea) 0
          else NMap.get 0 s.tm.pane j) ∧
      Does (.deqNb o) s (fun t => t.mem = s.mem ∧ t.queue q = { s.queue q with entries := r } ∧
        (∀ p, p ≠ q → t.queue p = s.queue p) ∧ { t.tm with pane := s.tm.pane } = s.tm ∧
        (∀ j, NMap.get 0 t.tm.pane j = if byteKey 2 ea ≤ j ∧ j < byteKey 2 ea + 64 then e.data.getD (j - byteKey 2 ea) 0
          else NMap.get 0 s.tm.pane j) ∧
        Answers s t (if o.pt = 0 then PendDest.none else .p o.pt) 1 true)) ∧
    (usable → (s.queue q).entries = [] → Does (.deq o) s (fun t => t = s.block (.deq q)) ∧
      Does (.deqNb o) s (fun t => t.queues = s.queues ∧ t.tm = s.tm ∧ t.mem = s.mem ∧
        Answers s t (if o.pt = 0 then PendDest.none else .p o.pt) 0 false))) ∧
  ∀ (o : OpDR) (s s' : State) (q ea pa leaf : Nat) (usable : Prop), s.pS o.g = true → isSupervisor (teamOf s.cur) = true →
    q = (s.aR o.ra).toNat → ea = s.addr 0 (s.aR o.rb).toNat → s.globalCheck (BitVec.ofNat 64 ea) 64 .write = (s', .ok (pa, 0, leaf)) →
    targetOf pa = .dram →
    (usable ↔ q < 4096 ∧ (s'.queue q).isOpen = true ∧ (s'.queue q).owner = s'.tm.asid) →
    (¬ usable → ∀ i ∈ [Instr.deq o, Instr.deqNb o],
      Does i s (fun t => t = s'.raise { prio := 101, code := 0x41, tinfo := BitVec.ofNat 64 (0xFFFF000000000000 + q) })) ∧
    (usable → s'.st.reqAt pa 64 = true → ∀ i ∈ [Instr.deq o, Instr.deqNb o], Does i s (fun t => t = s'.block .stall)) ∧
    (usable → s'.st.reqAt pa 64 = false → ∀ e r, (s'.queue q).entries = e :: r → e.data.length = 64 →
      ∀ i ∈ [Instr.deq o, Instr.deqNb o], Does i s (fun t => t.mem = s'.mem ∧ t.teams = s'.teams ∧
        t.queue q = { s'.queue q with entries := r } ∧ (∀ p, p ≠ q → t.queue p = s'.queue p) ∧
        { t.st with stores := s'.st.stores, storeSeq := s'.st.storeSeq, pend := s'.st.pend } = s'.st ∧ t.st.storeSeq = s'.st.storeSeq + 1 ∧
        (∀ j, NMap.get none t.st.stores j = if ea ≤ j ∧ j < ea + 64
          then some { val := e.data.getD (j - ea) 0, start := ea, scope := none, fresh := true, seq := s'.st.storeSeq }
          else NMap.get none s'.st.stores j) ∧
        (i = .deq o → t.st.pend = s'.st.pend) ∧
        (i = .deqNb o → Answers s' t (if o.pt = 0 then PendDest.none else .p o.pt) 1 true))) ∧
    (usable → s'.st.reqAt pa 64 = false → (s'.queue q).entries = [] → Does (.deq o) s (fun t => t = s'.block (.deq q)) ∧
      Does (.deqNb o) s (fun t => t.queues = s'.queues ∧ t.teams = s'.teams ∧ t.mem = s'.mem ∧
        Answers s' t (if o.pt = 0 then PendDest.none else .p o.pt) 0 false))) ∧
  (∀ (o : OpDR) (s : State) (q v : Nat) (owned : Prop), s.pS o.g = true → q = (s.aR o.ra).toNat → v = (s.aR o.rb).toNat →
    (owned ↔ q < 4080 ∧ (s.queue q).isOpen = true ∧ (s.queue q).owner = s.tm.asid) →
    (q < 4096 → (s.queue q).isOpen = false → 1 ≤ v → v ≤ 65536 → Does (.qctlOpen o) s (fun t => Answers s t (.a o.rd) 0 true ∧
      t.queue q = { isOpen := true, owner := s.tm.asid, cap := v, gen := (s.queue q).gen + 1, backoff := 0, entries := [] } ∧
      ∀ r, r ≠ q → t.queue r = s.queue r)) ∧
    (∀ c, (q < 4096 ∧ (s.queue q).isOpen = true ∧ c = 1) ∨
        ((q < 4096 → (s.queue q).isOpen = false) ∧ (v = 0 ∨ 65536 < v) ∧ c = 3) ∨ (4095 < q ∧ 1 ≤ v ∧ v ≤ 65536 ∧ c = 4) →
      Does (.qctlOpen o) s (fun t => Answers s t (.a o.rd) c true ∧ t.queues = s.queues)) ∧
    (owned →
      Does (.qctlClose o) s (fun t => t.queue q = { gen := (s.queue q).gen } ∧ (∀ r, r ≠ q → t.queue r = s.queue r) ∧ t.st.a = s.st.a ∧
        (∀ k, (t.strand k).window = (s.strand k).window.filter (fun e => e.queue != q)) ∧
        ∃ p, t.st.pend = s.st.pend ++ [p] ∧ p.dest = .a o.rd ∧ p.value = 0 ∧ p.ok = true ∧ p.done = true ∧ s.cycle + 40 ≤ p.due) ∧
      (v ≤ 15 → Does (.qctlBackoff o) s (fun t => Answers s t (.a o.rd) 0 true ∧ t.queue q = { s.queue q with backoff := v } ∧
        ∀ r, r ≠ q → t.queue r = s.queue r)) ∧
      (15 < v → Does (.qctlBackoff o) s (fun t => Answers s t (.a o.rd) 3 true ∧ t.queues = s.queues)) ∧
      Does (.qctlDepth o) s (fun t => Answers s t (.a o.rd) (s.queue q).entries.length true ∧ t.queues = s.queues)) ∧
    (¬ owned →
      (∀ c, (q < 4096 ∧ c = 2) ∨ (4095 < q ∧ c = 4) → Does (.qctlClose o) s (fun t => Answers s t (.a o.rd) c true ∧ t.queues = s.queues)) ∧
      (∀ c, (q < 4096 ∧ c = 2) ∨ (4095 < q ∧ 15 < v ∧ c = 3) ∨ (4095 < q ∧ v ≤ 15 ∧ c = 4) →
        Does (.qctlBackoff o) s (fun t => Answers s t (.a o.rd) c true ∧ t.queues = s.queues)) ∧
      Does (.qctlDepth o) s (fun t => Answers s t (.a o.rd) (2 ^ 64 - 1) true ∧ t.queues = s.queues)))

/-- R102, R106, R267, R285 to R288, R307, R414, R501: JRAISE adds to EXPECT of a job control block that is not complete, JDONE counts a
completion and merges its flags, JWAIT and JFLAGS answer with the block's value; a complete block traps JRAISE, and an incomplete one
blocks JWAIT. JWAIT answers 4 cycles later and renews at .dev. JDONE retires as a request, which leaves the core after the publication of
its strand's stores at .dev, or takes the fault of a store that faults; the others wait for the requests of their strand. A block that may
not be accessed takes its trap; a supervisor core waits while the home slices move. When JDONE counts, and which accesses wait while the
home slices move, are the model's reading (logs 106, 113). R102, R267, R286, R288: where the request of a JDONE leaves the core, of a
strand with no pending store, the completion counts, its flags merge, and no other byte changes. -/
def Obligations.JobControl : Prop :=
  (∀ (o : OpDR) (s s' : State), s.pS o.g = true →
    ((s.aR o.ra).toNat % 64 ≠ 0 → ∀ i ∈ [Instr.jraise o, .jdone o, .jwait o, .jflags o],
      Does i s (fun t => t = s.raise { prio := 80, code := 0x0A, tinfo := s.aR o.ra })) ∧
    (∀ r, s.jcbAccess (s.aR o.ra) = (s', .error r) → ∀ i ∈ [Instr.jraise o, .jdone o, .jwait o, .jflags o],
      Does i s (fun t => t = s'.raise r)) ∧
    ∀ (pa : Nat) (j : JcbData), s.jcbAccess (s.aR o.ra) = (s', .ok pa) → s'.readJcb pa = j →
    (s'.homesMove = true → ∀ i ∈ [Instr.jraise o, .jdone o, .jwait o, .jflags o], Does i s (fun t => t = s'.block .stall)) ∧
    (s'.st.reqOpen = true → ∀ i ∈ [Instr.jraise o, .jwait o, .jflags o], Does i s (fun t => t = s'.block .stall)) ∧
    (s'.homesMove = false →
      (∀ u cells b va c fs, s'.pubCells s'.cur (s'.st.toPublish 2) = (u, cells, (b, va, c) :: fs) →
        Does (.jdone o) s (fun t => t = s'.raise (memFault c va))) ∧
      (∀ u cells, s'.pubCells s'.cur (s'.st.toPublish 2) = (u, cells, []) →
        Does (.jdone o) s (fun t => Requested s' t 2 0 .none (.jdone (s.aR o.ra).toNat pa ((s.aR o.rb).toNat % 128)))) ∧
      (s'.st.reqOpen = false →
      (s'.st.stores = [] →
        (j.complete = false → Does (.jraise o) s (fun t => t.teams = s'.teams ∧ t.st.a = s'.st.a ∧
          (∀ a, a < pa ∨ pa + 32 ≤ a → Memory.read t.mem a = Memory.read s'.mem a) ∧
          t.readJcb pa = { j with expect := min (j.expect + (s.aR o.rb).toNat % 2 ^ 32) (2 ^ 32 - 1) })) ∧
        (j.complete = true → Does (.jraise o) s (fun t => t = s'.raise { prio := 120, code := 0x42, tinfo := s.aR o.ra }))) ∧
      (j.complete = true → Does (.jwait o) s (fun t => t.mem = s'.mem ∧ t.teams = s'.teams ∧ t.st.a = s'.st.a ∧
        s'.cycle + 4 ≤ t.st.notBefore ∧ (∃ r ∈ t.st.renew, r.scope = 2 ∧ r.pos = s'.log.length) ∧
        ∃ p, t.st.pend = s'.st.pend ++ [p] ∧ p.dest = .a o.rd ∧ p.value = j.value ∧ p.ok = true ∧ p.done = true ∧ p.due = s'.cycle + 4)) ∧
      (j.complete = false → Does (.jwait o) s (fun t => t = s'.block (.jcb (s.aR o.ra).toNat))) ∧
      Does (.jflags o) s (fun t => t.mem = s'.mem ∧ t.teams = s'.teams ∧
        Answers s' t (.a o.rd) (j.value + (if j.complete then 2 ^ 63 else 0)) true)))) ∧
  (∀ (s v : State) (k : Nat) (p : Pending) (va pa flags : Nat) (j : JcbData), Presents s v k p → p.req = some (.jdone va pa flags) →
    (s.strand k).stores = [] → flags < 128 → s.readJcb pa = j →
    Does (.dOperationComplete k) s (fun t => t.teams = s.teams ∧ t.cycle = max s.cycle p.due ∧ (t.strand k).a = (s.strand k).a ∧
      (t.strand k).pend = (s.strand k).pend.erase p ∧ (∀ a, a < pa ∨ pa + 32 ≤ a → Memory.read t.mem a = Memory.read s.mem a) ∧
      t.readJcb pa = { j with done := min (j.done + 1) (2 ^ 32 - 1), flags := j.flags ||| flags }))

/-- R102, R283, R284, R304, R307, R414, R501: TSUB and LAUNCH retire as requests, which leave the core after the publication of their
strand's stores at .dev, or take the fault of a store that faults. A misaligned descriptor or block takes trap 0x0A, so does a descriptor
whose block is misaligned, and a supervisor core waits while the home slices move. When the requests act, and the wait while the home
slices move, are the model's reading (logs 106, 113, 134). R283, R284, R342 to R344, R384, R391: where the request leaves the core, the
plinth reads the descriptor and the launch header, growing the pages that it may; a task that it accepts enters the dependence table under
the next sequence number, and its handle is the answer; a descriptor that is refused changes no table, and one that cannot be read is code
3 where the table is full, else 4; a launch enters the distributor's table, one for a queue above 575 is refused with code 1, and one for
a stream queue of another address space with code 2. -/
def Obligations.TasksAndLaunches : Prop :=
  (∀ (o : OpDR) (s : State), s.pS o.g = true →
    ((s.aR o.ra).toNat % 64 ≠ 0 → Does (.tsub o) s (fun t => t = s.raise { prio := 80, code := 0x0A, tinfo := s.aR o.ra })) ∧
    ((s.aR o.rb).toNat % 64 ≠ 0 → Does (.launch o) s (fun t => t = s.raise { prio := 80, code := 0x0A, tinfo := s.aR o.rb })) ∧
    (s.homesMove = true →
      ((s.aR o.ra).toNat % 64 = 0 → Does (.tsub o) s (fun t => t = s.block .stall)) ∧
      ((s.aR o.rb).toNat % 64 = 0 → Does (.launch o) s (fun t => t = s.block .stall))) ∧
    (s.homesMove = false →
      (∀ u cells b va c fs, s.pubCells s.cur (s.st.toPublish 2) = (u, cells, (b, va, c) :: fs) →
        ((s.aR o.ra).toNat % 64 = 0 → Does (.tsub o) s (fun t => t = s.raise (memFault c va))) ∧
        ((s.aR o.rb).toNat % 64 = 0 → Does (.launch o) s (fun t => t = s.raise (memFault c va)))) ∧
      ∀ u, s.publication s.cur 2 = (u, none) →
        ((s.aR o.ra).toNat % 64 = 0 →
          (∀ bs j, u.plinthRead s.tm.asid (s.aR o.ra).toNat 160 = some bs → j = dwordOf bs 1 % 2 ^ 56 → j % 64 ≠ 0 → Does (.tsub o) s (fun t =>
            t = ({ s with freeN := u.freeN } : State).raise { prio := 80, code := 0x0A, tinfo := BitVec.ofNat 64 j })) ∧
          ((∀ bs, u.plinthRead s.tm.asid (s.aR o.ra).toNat 160 = some bs → dwordOf bs 1 % 2 ^ 56 % 64 = 0) →
            Does (.tsub o) s (fun t => Requested s t 2 0 (.a o.rd) (.tsub (s.aR o.ra).toNat)))) ∧
        ((s.aR o.rb).toNat % 64 = 0 → Does (.launch o) s (fun t =>
          Requested s t 2 0 (.a o.rd) (.launch (s.aR o.ra).toNat (s.aR o.rb).toNat (s.aR o.rc).toNat))))) ∧
  (∀ (s v : State) (k : Nat) (p : Pending), Presents s v k p →
    (∀ va u, p.req = some (.tsub va) → u = v.plinthTouch v.tm.asid va 160 →
      (u.plinthRead u.tm.asid va 160 = none → Does (.dOperationComplete k) s (fun t => t.mem = u.mem ∧ t.tasks = u.tasks ∧ t.launches = u.launches ∧
        Answers u { t with cur := k } p.dest (2 ^ 63 + (if u.freeTask = none then 3 else 4)) true)) ∧
      ∀ bs w, u.plinthRead u.tm.asid va 160 = some bs → w = u.plinthTouch u.tm.asid (dwordOf bs 0 % 2 ^ 56) 64 →
        (∀ c, w.taskRefusal (dwordOf bs) = some c → Does (.dOperationComplete k) s (fun t => t.mem = w.mem ∧ t.tasks = w.tasks ∧
          t.launches = w.launches ∧ Answers w { t with cur := k } p.dest (2 ^ 63 + c) true)) ∧
        ∀ slot, w.taskRefusal (dwordOf bs) = none → w.freeTask = some slot → Does (.dOperationComplete k) s (fun t => t.mem = w.mem ∧
          t.nextSeq = w.nextSeq + 1 ∧
          (∃ T, NMap.get none t.tasks slot = some T ∧ T.seq = w.nextSeq + 1 ∧ T.asid = w.tm.asid ∧ T.launch = w.nextLid ∧
            (t.launch w.nextLid).hdrVa = dwordOf bs 0 % 2 ^ 56 ∧ (t.launch w.nextLid).jcb = some (dwordOf bs 1 % 2 ^ 56) ∧
            (t.launch w.nextLid).task = some slot) ∧
          (∀ i, i ≠ slot → NMap.get none t.tasks i = NMap.get none w.tasks i) ∧
          Answers w { t with cur := k } p.dest ((w.nextSeq + 1) % 2 ^ 47 * 65536 + slot) true)) ∧
    ∀ hdr jcb x q, p.req = some (.launch hdr jcb x) → q = x % 1024 →
      (∀ c, (575 < q ∧ c = 1) ∨ (q ≤ 575 ∧ v.foreignQueue q = true ∧ c = 2) →
        Does (.dOperationComplete k) s (fun t => t.mem = s.mem ∧ t.launches = s.launches ∧ Answers v { t with cur := k } p.dest (2 ^ 63 + c) true)) ∧
      (q ≤ 575 → v.foreignQueue q = false →
        Does (.dOperationComplete k) s (fun t => t.mem = s.mem ∧ Answers v { t with cur := k } p.dest 0 true ∧ (t.launch s.nextLid).hdrVa = hdr ∧
          (t.launch s.nextLid).queue = q ∧ (t.launch s.nextLid).jcb = some jcb ∧ (t.launch s.nextLid).subAsid = v.tm.asid ∧
          (t.launch s.nextLid).cost = x / 2 ^ 32 % 2 ^ 32 ∧ (t.launch s.nextLid).live = true ∧ t.nextLid = s.nextLid + 1 ∧
          ∀ l, l ≠ s.nextLid → t.launch l = s.launch l)))

/-- R290 to R293, R384, R391, R395: a lookup reads its key, growing its page; a key that cannot be read gives a free value; an unknown key
answers 0 and touches nothing; one that hits records the lookup, maps the entry's pages and answers their count, or 2^63 + 1 where the
range is misaligned or not free (that the range is judged on a hit alone is the model's choice, log 132). PFXINS retires as a request of a
boundary at .dev. TRIM of a range begins a boundary at .dev, at whose publication point it unmaps its page and returns the frame of the
last mapping; PIN writes the PIN bit of its page; with no mapped page they change no byte of memory; both wait for accesses through a PCIe
window to the range (R399); an unaligned end takes the misaligned-address trap (of two the first: the model's choice, log 133). A
destination with no table level, what TRIM leaves of an entry, and the waits while the home slices move are the model's reading (logs 55,
56, 113). R291, R384, R395, R396: where the request of a PFXINS leaves the core, an insertion with no page or too many answers 2^63 + 2,
one of a range that is not aligned or not mapped 2^63 + 1, and neither changes anything; a new key enters its bucket, in a free place or
in that of the idle entry looked up longest ago, and answers 0, a known one answers 1, and one that finds its bucket full of entries in
use answers 2. -/
def Obligations.PrefixesAndPages : Prop :=
  (∀ (o : OpDR) (s : State), s.pS o.g = true →
    (s.homesMove = true → ∀ i ∈ [Instr.pfxlook o, .pfxins o], Does i s (fun t => t = s.block .stall)) ∧
    (∀ u, s.homesMove = false → u = s.plinthTouch s.tm.asid (s.aR o.ra).toNat 32 →
      (u.readKey (s.aR o.ra).toNat = none → Does (.pfxlook o) s (fun t => t.mem = u.mem ∧ t.pfx = u.pfx ∧ ∃ x, Answers u t (.a o.rd) x true)) ∧
      ∀ key, u.readKey (s.aR o.ra).toNat = some key →
      (u.findPrefix s.tm.asid key = none →
        Does (.pfxlook o) s (fun t => t.mem = u.mem ∧ t.pfx = u.pfx ∧ Answers u t (.a o.rd) 0 true)) ∧
      ∀ e p va, u.findPrefix s.tm.asid key = some (e, p) → va = (s.aR o.rb).toNat →
        ((va % 65536 ≠ 0 ∨ 2 ^ 56 < va + 65536 * p.npg) →
          Does (.pfxlook o) s (fun t => t.mem = u.mem ∧ (e, { p with lookup := u.cycle }) ∈ t.pfx ∧ Answers u t (.a o.rd) (2 ^ 63 + 1) true)) ∧
        (va % 65536 = 0 → va + 65536 * p.npg ≤ 2 ^ 56 →
          (∀ x, (u.touchPrefix e).freeEntries s.tm.asid va p.npg = (x, none) →
            Does (.pfxlook o) s (fun t => t.mem = u.mem ∧ Answers u t (.a o.rd) (2 ^ 63 + 1) true)) ∧
          ∀ x l, (u.touchPrefix e).freeEntries s.tm.asid va p.npg = (x, some l) →
            Does (.pfxlook o) s (fun t => (e, { p with lookup := u.cycle }) ∈ t.pfx ∧ t.st.a = u.st.a ∧
              ∃ q, t.st.pend = x.st.pend ++ [q] ∧ q.dest = .a o.rd ∧ q.value = p.npg ∧ q.ok = true ∧ u.cycle + 40 ≤ q.due))) ∧
    (s.homesMove = false →
      (∀ u cells b va c fs, s.pubCells s.cur (s.st.toPublish 2) = (u, cells, (b, va, c) :: fs) →
        Does (.pfxins o) s (fun t => t = s.raise (memFault c va))) ∧
      ∀ u cells, s.pubCells s.cur (s.st.toPublish 2) = (u, cells, []) → Does (.pfxins o) s (fun t =>
        Requested s t 2 0 (.a o.rd) (.pfxins (s.aR o.ra).toNat (s.aR o.rb).toNat (s.aR o.rc).toNat))) ∧
    (∀ a b, a = s.aR o.ra → b = a + s.aR o.rb →
      (a.toNat % 65536 ≠ 0 → ∀ i ∈ [Instr.trim o, Instr.pin o], Does i s (fun t => t = s.raise { prio := 80, code := 0x0A, tinfo := a })) ∧
      (a.toNat % 65536 = 0 → b.toNat % 65536 ≠ 0 → ∀ i ∈ [Instr.trim o, Instr.pin o],
        Does i s (fun t => t = s.raise { prio := 80, code := 0x0A, tinfo := b })) ∧
      (a.toNat % 65536 = 0 → b.toNat % 65536 = 0 → ∀ (pages : List LeafAt) (open' : Prop),
        pages = s.pagesWithin s.tm.asid a.toNat (a.toNat + (s.aR o.rb).toNat) →
        (open' ↔ ∃ k ∈ s.strands, (s.team (k.1 / 4)).asid = s.tm.asid ∧ ∃ q ∈ k.2.pend, q.global = true ∧ q.pcie = true ∧ q.done = false ∧
          q.failed = false ∧ q.va < a.toNat + (s.aR o.rb).toNat ∧ a.toNat ≤ q.va) →
        (open' → ∀ i ∈ [Instr.trim o, Instr.pin o], Does i s (fun t => t = s.block .stall)) ∧
        (¬ open' →
        (pages = [] → Does (.pin o) s (fun t => t = s)) ∧
        (∀ l, pages = [l] → Does (.pin o) s (fun t => t.st.a = s.st.a ∧ t.teams = s.teams ∧
          ∀ x, Memory.read t.mem x = if l.at_ ≤ x ∧ x < l.at_ + 8
            then BitVec.ofNat 8 (withPin l.pte (o.sub == 0) / 256 ^ (x - l.at_)) else Memory.read s.mem x)) ∧
        (s.homesMove = true → Does (.trim o) s (fun t => t = s.block .stall)) ∧
        (s.homesMove = false → s.st.bnd = none → s.st.stores = [] → Does (.trim o) s (fun t =>
          t = s.block (.until (max (max s.cycle s.st.devBy + 64) (s.st.reqsDue + 1))))) ∧
        (s.homesMove = false → s.st.bnd ≠ none → s.st.stores = [] → pages.filter (fun l => !ptePin l.pte) = [] →
          Does (.trim o) s (fun t => t.mem = s.mem ∧ t.teams = s.teams ∧ t.mapCount = s.mapCount ∧ t.free = s.free)) ∧
        ∀ l f, s.homesMove = false → s.st.bnd ≠ none → s.st.stores = [] → pages.filter (fun l => !ptePin l.pte) = [l] → l.large = false →
          f = ptePA l.pte → (l.at_ + 8 ≤ f ∨ f + 65536 ≤ l.at_) →
          Does (.trim o) s (fun t => t.st.a = s.st.a ∧ t.teams = s.teams ∧
            (∀ x, l.at_ ≤ x → x < l.at_ + 8 → Memory.read t.mem x = BitVec.ofNat 8 ((l.pte - 1) / 256 ^ (x - l.at_))) ∧
            (∀ x, (x < l.at_ ∨ l.at_ + 8 ≤ x) → (x < f ∨ f + 65536 ≤ x) → Memory.read t.mem x = Memory.read s.mem x) ∧
            (s.mapsOf f ≤ 1 → t.free = s.free + 1 ∧ t.freeHead = f) ∧
            (2 ≤ s.mapsOf f → t.free = s.free ∧ t.mapsOf f = s.mapsOf f - 1) ∧
            ∀ e ∈ t.tlb, e ∈ s.tlb ∧ ¬ (e.asid = s.tm.asid ∧ e.base < l.va + l.size ∧ l.va < e.base + e.size)))))) ∧
  (∀ (s v : State) (k ka va n : Nat) (p : Pending), Presents s v k p → p.req = some (.pfxins ka va n) →
    (n < 1 ∨ 256 < n → Does (.dOperationComplete k) s (fun t => t.mem = s.mem ∧ t.pfx = s.pfx ∧
      Answers v { t with cur := k } p.dest (2 ^ 63 + 2) true)) ∧
    (1 ≤ n → n ≤ 256 → (va % 65536 ≠ 0 ∨ 2 ^ 56 < va + 65536 * n ∨ v.mappedPages v.tm.asid va n = none) →
      Does (.dOperationComplete k) s (fun t => t.mem = s.mem ∧ t.pfx = s.pfx ∧ Answers v { t with cur := k } p.dest (2 ^ 63 + 1) true)) ∧
    ∀ pages u, 1 ≤ n → n ≤ 256 → va % 65536 = 0 → va + 65536 * n ≤ 2 ^ 56 → v.mappedPages v.tm.asid va n = some pages →
      u = v.plinthTouch v.tm.asid ka 32 →
      (u.readKey ka = none → Does (.dOperationComplete k) s (fun t => t.mem = u.mem ∧ t.pfx = u.pfx ∧
        ∃ x, Answers u { t with cur := k } p.dest x true)) ∧
      ∀ key (enters : Nat → State → Prop), u.readKey ka = some key →
      (∀ e t, enters e t ↔ (∃ x ∈ t.pfx, x.1 = e ∧ x.2.asid = v.tm.asid ∧ x.2.key = key ∧ x.2.npg = n ∧
        x.2.lookup = v.cycle ∧ x.2.frames = pages.map (fun (y : MappedPage) => ptePA y.leaf)) ∧ (t.strand k).a = (s.strand k).a ∧
        ∃ q ∈ (t.strand k).pend, q.dest = p.dest ∧ q.value = 0 ∧ q.ok = true ∧ v.cycle + 40 ≤ q.due) →
      (∀ e q, u.findPrefix v.tm.asid key = some (e, q) →
        Does (.dOperationComplete k) s (fun t => t.pfx = u.pfx ∧ (t.strand k).a = (s.strand k).a ∧
          ∃ q ∈ (t.strand k).pend, q.dest = p.dest ∧ q.value = 1 ∧ q.ok = true ∧ v.cycle + 40 ≤ q.due)) ∧
      (u.findPrefix v.tm.asid key = none →
        (∀ i, (List.range 16).find? (fun i => (u.bucket (keyBucket key)).all (fun q => q.1 != 16 * keyBucket key + i)) = some i →
          Does (.dOperationComplete k) s (enters (16 * keyBucket key + i))) ∧
        ((∀ i, i < 16 → ∃ q ∈ u.bucket (keyBucket key), q.1 = 16 * keyBucket key + i) →
          ((∀ q ∈ u.bucket (keyBucket key), u.idle q.2 = false) →
            Does (.dOperationComplete k) s (fun t => t.mem = u.mem ∧ t.pfx = u.pfx ∧ Answers u { t with cur := k } p.dest 2 true)) ∧
          ((∃ q ∈ u.bucket (keyBucket key), u.idle q.2 = true) → ∃ q ∈ u.bucket (keyBucket key), u.idle q.2 = true ∧
            (∀ r ∈ u.bucket (keyBucket key), u.idle r.2 = true → q.2.lookup ≤ r.2.lookup) ∧
            Does (.dOperationComplete k) s (enters q.1)))))

/-- R33, R34, R297 to R299: a privileged instruction below its level is a security violation that parks the strand and has no other
effect; at its level SEEDSET and CBSET write their tables, XLINV drops the translations and cached blocks it names and renews the fetch
views of their pages (R159), once the accesses through a PCIe window translated under them are performed (R399); CBSET's read waits while
home slices move (R375); and CRSET begins the change, whose result comes later, or answers 3 while one is in progress. That TINFO is the
opcode is the model's reading (log 62). -/
def Obligations.PrivilegedInstructions : Prop :=
  ∀ (o : OpDR) (s : State), s.pS o.g = true →
    (s.rs.level < 2 → ∀ i op, (i = .seedset o ∧ op = 0xF0) ∨ (i = .cbset o ∧ op = 0xF1) ∨ (i = .crset o ∧ op = 0xF3) →
      Does i s (fun t => t = s.raise { prio := 40, code := 0x80, tinfo := BitVec.ofNat 64 op })) ∧
    (s.rs.level < 1 → ∀ i ∈ [Instr.xlinvRng o, Instr.xlinvAsid o, Instr.xlinvAll o],
      Does i s (fun t => t = s.raise { prio := 40, code := 0x80, tinfo := 0xF2 })) ∧
    (2 ≤ s.rs.level → Does (.seedset o) s (fun t => { t with seeds := s.seeds } = s ∧
      ∀ n, NMap.get 0 t.seeds n = if n = (s.aR o.ra).toNat % 256 then s.aR o.rb else NMap.get 0 s.seeds n)) ∧
    (2 ≤ s.rs.level → s.homesMove = true → Does (.cbset o) s (fun t => t = s.block .stall)) ∧
    (2 ≤ s.rs.level → s.homesMove = false → ∀ s' r, s.levelRead (s.aR o.rb).toNat 32 = (s', r) →
      Does (.cbset o) s (fun t => t.mem = s'.mem ∧ t.teams = s'.teams ∧ t.strands = s'.strands ∧
        (∀ bs, r = some bs → bs.length = 32 → ∀ k, k < 16 → NMap.get 0 t.books (16 * ((s.aR o.ra).toNat % 4096) + k) =
          (bs.getD (2 * k) 0).toNat + 256 * (bs.getD (2 * k + 1) 0).toNat) ∧
        ∀ n k, k < 16 → n ≠ (s.aR o.ra).toNat % 4096 → NMap.get 0 t.books (16 * n + k) = NMap.get 0 s'.books (16 * n + k))) ∧
    (∀ (waits : Nat → Nat → Nat → Prop), (∀ g lo n, waits g lo n ↔ ∃ k ∈ s.strands, (s.team (k.1 / 4)).asid = g ∧ ∃ q ∈ k.2.pend,
        q.global = true ∧ q.pcie = true ∧ q.done = false ∧ q.failed = false ∧ q.va < lo + n ∧ lo ≤ q.va) → 1 ≤ s.rs.level →
      ((s.aR o.rc) ≠ 0 → waits ((s.aR o.ra).toNat % 65536) (s.aR o.rb).toNat (s.aR o.rc).toNat →
        Does (.xlinvRng o) s (fun t => t = s.block .stall))) ∧
    (1 ≤ s.rs.level → (∃ k ∈ s.strands, ∃ q ∈ k.2.pend, q.global = true ∧ q.pcie = true ∧ q.done = false ∧ q.failed = false) →
      Does (.xlinvAll o) s (fun t => t = s.block .stall)) ∧
    (1 ≤ s.rs.level → (∀ k ∈ s.strands, ∀ q ∈ k.2.pend, q.pcie = false ∨ q.done = true) →
      Does (.xlinvAll o) s (fun t => t.mem = s.mem ∧ t.tlb = [] ∧ t.walks = [] ∧ t.cache = [] ∧ t.teams = s.teams ∧ t.st.a = s.st.a) ∧
      Does (.xlinvAsid o) s (fun t => t.mem = s.mem ∧ t.teams = s.teams ∧ t.st.a = s.st.a ∧
        t.tlb = s.tlb.filter (fun e => e.asid != (s.aR o.ra).toNat % 65536) ∧
        t.walks = s.walks.filter (fun e => e.asid != (s.aR o.ra).toNat % 65536) ∧
        t.cache = s.cache.filter (fun b => b.asid != (s.aR o.ra).toNat % 65536)) ∧
      ((s.aR o.rc) = 0 → Does (.xlinvRng o) s (fun t => t = s)) ∧
      ((s.aR o.rc) ≠ 0 → ∀ g lo hi, g = (s.aR o.ra).toNat % 65536 → lo = (s.aR o.rb).toNat → hi = lo + (s.aR o.rc).toNat →
        Does (.xlinvRng o) s (fun t => t.mem = s.mem ∧ t.teams = s.teams ∧ t.st.a = s.st.a ∧
          (∀ e, e ∈ t.tlb ↔ e ∈ s.tlb ∧ ¬ (e.asid = g ∧ e.base < hi ∧ lo < e.base + e.size)) ∧
          (∀ k, s.strand k ≠ {} → (s.team (k / 4)).asid = g → ∃ r ∈ (t.strand k).irenew, r.pos = s.log.length ∧ r.scope = 2 ∧
            ∃ x y, r.range = some (x, y) ∧ x ≤ lo ∧ hi ≤ y) ∧
          ∀ b, b ∈ t.cache ↔ b ∈ s.cache ∧ ¬ (b.asid = g ∧ b.pageBase < hi ∧ lo < b.pageBase + b.pageSize)))) ∧
    (2 ≤ s.rs.level → s.rcState = 0 → Does (.crset o) s (fun t => t.rcState = 1 ∧ t.pendMap = (s.aR o.ra).toNat % 64 ∧
      t.rcDry = (s.aR o.ra).toNat.testBit 8 ∧ t.rcStrand = s.cur ∧ t.roleMap = s.roleMap ∧ t.mem = s.mem ∧ t.st.a = s.st.a ∧
      ∃ p, t.st.pend = s.st.pend ++ [p] ∧ p.dest = .a o.rd ∧ p.done = false)) ∧
    (2 ≤ s.rs.level → s.rcState ≠ 0 → Does (.crset o) s (fun t => t.rcState = s.rcState ∧ t.pendMap = s.pendMap ∧ Answers s t (.a o.rd) 3 true))

/-- R294 to R296, R340, R353: an instruction on a stream the caller does not own answers 2^63 + 1 and changes no stream; the owner closes
it, reads its rung, reserves the next slot of its frame ring, or is told that the ring is full, and publishes a slot, which moves PUB over
the published ones. FRAME.chk with negative slack drops a rung, once for a frame; the first publication of a frame that met its deadline
counts, and climbs a rung where the count is reached. STOPEN answers with what admission gives, or waits during a role change (R372). R335
to R337: a release of a stream launches its frame job, with its number, deadline, release, encoder queue and rung in the mailboxes, where
fewer than two are outstanding, and otherwise waits with an overrun event; a closing stream releases no more, and is free once it has no
job left to end or to code; a deferred release follows when the older of the two jobs that it found outstanding has ended. That a closing
stream drops its deferred releases is the model's reading (log 57). -/
def Obligations.Streams : Prop :=
  (∀ (o : OpDR) (s : State) (n : Nat) (st : Stream) (f : Ring), s.pS o.g = true → n = (s.aR o.ra).toNat → st = s.stream n → f = st.frame →
    (s.ownsStream (s.aR o.ra) = false → ∀ i ∈ [Instr.stclose o, .strung o, .frameRsv o, .framePub o, .frameChk o],
      Does i s (fun t => t.mem = s.mem ∧ t.streams = s.streams ∧ Answers s t (.a o.rd) (2 ^ 63 + 1) true)) ∧
    (s.ownsStream (s.aR o.ra) = true →
      Does (.stclose o) s (fun t => t.mem = s.mem ∧ t.stream n = { st with closing := true } ∧
        (∀ m, m ≠ n → t.stream m = s.stream m) ∧ Answers s t (.a o.rd) 0 true) ∧
      Does (.strung o) s (fun t => t.mem = s.mem ∧ t.streams = s.streams ∧ Answers s t (.a o.rd) st.rung true) ∧
      ((∀ k, s.jobOn n = some k → st.job k = none) →
        Does (.frameChk o) s (fun t => t.streams = s.streams ∧ Answers s t (.a o.rd) st.rung true)) ∧
      (∀ k j, s.jobOn n = some k → st.job k = some j →
        ((s.cycle + 256 * s.remaining n k ≤ j.dk ∨ j.drop = true ∨ st.minrung ≤ st.rung) →
          Does (.frameChk o) s (fun t => t.streams = s.streams ∧ Answers s t (.a o.rd) st.rung true)) ∧
        (j.dk < s.cycle + 256 * s.remaining n k → j.drop = false → st.rung < st.minrung →
          Does (.frameChk o) s (fun t => (t.stream n).rung = st.rung + 1 ∧ (t.stream n).ontime = 0 ∧
            (∀ m, m ≠ n → t.stream m = s.stream m) ∧ Answers s t (.a o.rd) (st.rung + 1) true))) ∧
      (f.rsv - f.pub = f.nslot → Does (.frameRsv o) s (fun t => t.streams = s.streams ∧ Answers s t (.a o.rd) (2 ^ 63 + 1) true)) ∧
      (f.rsv - f.pub ≠ f.nslot → Does (.frameRsv o) s (fun t => (t.stream n).frame = { f with
          ready := clrBit f.ready (f.rsv % f.nslot), poison := clrBit f.poison (f.rsv % f.nslot), rsv := f.rsv + 1
          times := f.times ++ [(f.rsv, s.cycle, (s.jobOn n).getD 0)] } ∧ (t.stream n).rung = st.rung ∧ t.st.a = s.st.a ∧
        ∃ p, t.st.pend = s.st.pend ++ [p] ∧ p.dest = .a o.rd ∧ p.value = f.rsv ∧ p.ok = true ∧ s.cycle + 40 ≤ p.due)) ∧
      ∀ i, i = (s.aR o.rb).toNat →
      ((i < f.pub ∨ f.rsv ≤ i ∨ f.ready.testBit (i % f.nslot) = true) →
        Does (.framePub o) s (fun t => t.streams = s.streams ∧ Answers s t (.a o.rd) (2 ^ 63 + 2) true)) ∧
      (f.pub ≤ i → i < f.rsv → f.ready.testBit (i % f.nslot) = false → f.rsv ≤ f.pub + 64 →
        ∃ r : Ring, f.publish i = some r ∧ r.ready = f.ready + 2 ^ (i % f.nslot) ∧ r.rsv = f.rsv ∧ f.pub ≤ r.pub ∧ r.pub ≤ f.rsv ∧
          (∀ m, f.pub ≤ m → m < r.pub → r.ready.testBit (m % f.nslot) = true) ∧
          (r.pub < f.rsv → r.ready.testBit (r.pub % f.nslot) = false) ∧
          ((∀ k, s.jobOn n = some k → st.job k = none) →
            Does (.framePub o) s (fun t => (t.stream n).frame = r ∧ (t.stream n).rung = st.rung ∧ (t.stream n).ontime = st.ontime ∧
              t.st.a = s.st.a ∧ ∃ p ∈ t.st.pend, p.dest = .a o.rd ∧ p.value = 1 ∧ p.ok = true ∧ s.cycle + 40 ≤ p.due)) ∧
          ∀ k j, s.jobOn n = some k → st.job k = some j →
            Does (.framePub o) s (fun t => (t.stream n).frame = r ∧ t.st.a = s.st.a ∧
              (∃ p ∈ t.st.pend, p.dest = .a o.rd ∧ p.value = (if s.cycle ≤ j.dk then 1 else 0) ∧ p.ok = true ∧ s.cycle + 40 ≤ p.due) ∧
              ((t.stream n).rung, (t.stream n).ontime) =
                if j.published then (st.rung, st.ontime)
                else if s.cycle ≤ j.dk ∧ j.drop = false then
                  if st.climb ≤ st.ontime + 1 ∧ 0 < st.rung then (st.rung - 1, 0) else (st.rung, st.ontime + 1)
                else (st.rung, 0)))) ∧
    (s.rcState = 0 → ∀ s' v, s.accept s.tm.asid n = (s', v) →
      Does (.stopen o) s (fun t => t.streams = s'.streams ∧ t.mem = s'.mem ∧ Answers s' t (.a o.rd) v true)) ∧
    (s.rcState ≠ 0 → Does (.stopen o) s (fun t => t.streams = s.streams ∧ t.mem = s.mem ∧ t.held = s.held ++ [.stopen s.cur n] ∧
      t.st.a = s.st.a ∧ ∃ p, t.st.pend = s.st.pend ++ [p] ∧ p.dest = .a o.rd ∧ p.done = false))) ∧
  (∀ (n : Nat) (s : State) (st : Stream) (tk : Nat), s.stream n = st → st.live = true → tk = st.t0 + st.nextK * st.period →
    (st.closed = true → Does (.streamRelease n) s (fun t => t = s)) ∧
    (st.closed = false → st.closing = false → st.jobs.length < 2 → st.deferred = [] →
      Does (.streamRelease n) s (fun t => t.mem = s.mem ∧ t.cycle = max s.cycle tk ∧
        (t.stream n).nextK = st.nextK + 1 ∧ (t.stream n).jobs.length = st.jobs.length + 1 ∧ t.nextLid = s.nextLid + 1 ∧
        (∃ j ∈ (t.stream n).jobs, j.k = st.nextK ∧ j.tk = tk ∧ j.dk = tk + st.deadline) ∧
        (t.launch s.nextLid).hdrVa = st.fprog ∧ (t.launch s.nextLid).subAsid = st.asid ∧ (t.launch s.nextLid).queue = n ∧
        (t.launch s.nextLid).job = some (n, st.nextK) ∧
        (t.launch s.nextLid).mbxInit = [(0, BitVec.ofNat 64 n), (1, BitVec.ofNat 64 st.nextK), (2, BitVec.ofNat 64 (tk + st.deadline)),
          (3, BitVec.ofNat 64 tk), (4, BitVec.ofNat 64 (4080 + st.engine)), (5, BitVec.ofNat 64 st.rung)])) ∧
    (st.closed = false → st.closing = false → (2 ≤ st.jobs.length ∨ st.deferred ≠ []) →
      Does (.streamRelease n) s (fun t => (t.stream n).nextK = st.nextK + 1 ∧ (t.stream n).jobs = st.jobs ∧
        (t.stream n).deferred = st.deferred ++ [st.nextK] ∧ ∃ u : State, t = u.streamEvent n 1 0 st.nextK)) ∧
    (st.closed = false → st.closing = true → (st.jobs ≠ [] ∨ ∃ j ∈ st.encJobs, j.1 ∉ st.deferred) →
      Does (.streamRelease n) s (fun t => t.launches = s.launches ∧ (t.stream n).closed = true ∧ (t.stream n).deferred = [] ∧
        (t.stream n).jobs = st.jobs)) ∧
    (st.closed = false → st.closing = true → st.jobs = [] → (∀ j ∈ st.encJobs, j.1 ∈ st.deferred) →
      Does (.streamRelease n) s (fun t => t.launches = s.launches ∧ t.stream n = {})) ∧
    (∀ k r, st.deferred = k :: r → (∀ j ∈ st.jobs, j.k + 1 = k) →
      Does (.deferredRelease n) s (fun t => t.mem = s.mem ∧ (t.stream n).deferred = r ∧ (t.stream n).jobs.length = st.jobs.length + 1 ∧
        (t.launch s.nextLid).job = some (n, k) ∧ (t.launch s.nextLid).hdrVa = st.fprog)) ∧
    ((st.deferred = [] ∨ ∃ k r, st.deferred = k :: r ∧ ∃ j ∈ st.jobs, j.k + 1 ≠ k) → Does (.deferredRelease n) s (fun t => t = s)))

/-- R341, R355 to R357, R375: a stalled slot of a ring is noted once, with an event for the frame that reserved it; the encoder takes the
oldest entry of its queue and holds the bands of the frame it codes and of the next one, drops and counts an entry that breaks the
protocol or comes when its frame is a repeat, and ignores a band it holds already; its accesses wait while home slices move; the last
band, or the deadline of a missing one, completes a frame, which goes into its ring or waits where that is full, with one event. Details
of the counts are the model's reading (log 58). -/
def Obligations.Encoders : Prop :=
  (∀ (n ring : Nat) (s : State) (st : Stream) (f : Ring) (c : Nat), s.stream n = st → st.live = true →
    (ring = 0 ∧ f = st.frame ∨ ring = 1 ∧ f = st.bits) → f.stallAt st.rtimeout = some c →
    Does (.ringStallTimeout n ring) s (fun t => t.cycle = max s.cycle c ∧
      t.stream n = (if ring = 1 then { st with bits := { f with stalled := some f.pub } } else { st with frame := { f with stalled := some f.pub } }) ∧
      ∃ u : State, t = u.streamEvent n (if ring = 1 then 4 else 3) f.pub f.pubFrame)) ∧
  (∀ (e n band k : Nat) (s : State) (st : Stream) (q : QEntry) (r : List QEntry) (d0 : Nat) (good held : Prop),
    (s.queue (4080 + e)).entries = q :: r → d0 = dwordOf q.data 0 → n = d0 % 512 → band = d0 / 2 ^ 16 % 2 ^ 16 → k = dwordOf q.data 1 →
    st = s.stream n →
    (good ↔ st.live = true ∧ st.asid = q.asid ∧ d0 / 2 ^ 32 % 2 ^ 32 = 0 ∧ d0 / 512 % 128 = 0 ∧
      (∀ i, i ∈ [2, 3, 4, 5, 6, 7] → dwordOf q.data i = 0) ∧ band < bandCount (st.dims k).2 ∧
      (k = st.encK + 1 ∨ k = st.encK ∧ st.encWait = none)) →
    (held ↔ (∃ x, (k, band, x) ∈ st.encHeld) ∨ k = st.encK ∧ band < st.encBand) →
    (¬ good → Does (.encoderEntry e) s (fun t => (t.queue (4080 + e)).entries = r ∧ t.streams = s.streams ∧
      NMap.get 0 t.encDropped e = NMap.get 0 s.encDropped e + 1 ∧ ∃ u : State, t = u.streamEvent n 5 band k)) ∧
    (good → held → Does (.encoderEntry e) s (fun t => t.mem = s.mem ∧ (t.queue (4080 + e)).entries = r ∧ t.streams = s.streams)) ∧
    (good → ¬ held → (∃ j ∈ st.encJobs, j.1 = k ∧ j.2.1 + st.period ≤ s.cycle) →
      Does (.encoderEntry e) s (fun t => (t.queue (4080 + e)).entries = r ∧ t.streams = s.streams ∧
        NMap.get 0 t.encDropped e = NMap.get 0 s.encDropped e + 1 ∧ ∃ u : State, t = u.streamEvent n 5 band k)) ∧
    (good → ¬ held → (∀ j ∈ st.encJobs, j.1 = k → s.cycle < j.2.1 + st.period) →
      Does (.encoderEntry e) s (fun t => t.mem = s.mem ∧ (t.queue (4080 + e)).entries = r ∧
      t.stream n = { st with encHeld := st.encHeld ++ [(k, band, q.pos)] } ∧ ∀ m, m ≠ n → t.stream m = s.stream m))) ∧
  (∀ (n : Nat) (s : State), s.rcState = 3 ∨ s.rcState = 4 →
    ∀ i ∈ [Instr.encoderBandRead n, .encoderRepeatFrame n, .bitstreamRingSpace n], Does i s (fun t => t = s)) ∧
  (∀ (n : Nat) (s : State) (st : Stream), s.stream n = st → st.bandReady = true → s.rcState ≠ 3 → s.rcState ≠ 4 →
    (st.encBand + 1 < bandCount (st.dims st.encK).2 →
      Does (.encoderBandRead n) s (fun t => (t.stream n).encBand = st.encBand + 1 ∧ (t.stream n).encK = st.encK ∧ (t.stream n).encWait = none ∧
        ∀ h, h ∈ (t.stream n).encHeld ↔ h ∈ st.encHeld ∧ ¬ (h.1 = st.encK ∧ h.2.1 = st.encBand))) ∧
    (bandCount (st.dims st.encK).2 ≤ st.encBand + 1 → st.closed = false → st.bits.rsv - st.bits.pub ≠ st.bits.nslot →
      Does (.encoderBandRead n) s (fun t => (t.stream n).encK = st.encK ∧ (t.stream n).encWait = some (st.encK, true) ∨
        (t.stream n).encK = st.encK + 1 ∧ (t.stream n).encBand = 0 ∧ (t.stream n).encWait = none ∧
          (t.stream n).bits.rsv = st.bits.rsv + 1))) ∧
  (∀ (n : Nat) (s : State) (st : Stream) (c : Nat), s.stream n = st → st.live = true → st.repeatAt = some c → s.rcState ≠ 3 → s.rcState ≠ 4 →
    (s.bitsFull n = true →
      Does (.encoderRepeatFrame n) s (fun t => (t.stream n).repeats = st.repeats + 1 ∧ (t.stream n).encWait = some (st.encK, true) ∧
        t.cycle = max s.cycle c ∧ ∃ u : State, t = u.streamEvent n 6 st.bits.rsv st.encK)) ∧
    (s.bitsFull n = false → st.closed = false → st.bits.rsv - st.bits.pub ≠ st.bits.nslot →
      Does (.encoderRepeatFrame n) s (fun t => (t.stream n).repeats = st.repeats + 1 ∧ (t.stream n).encK = st.encK + 1 ∧
        (t.stream n).encBand = 0 ∧ (t.stream n).bits.rsv = st.bits.rsv + 1))) ∧
  ∀ (n : Nat) (s : State) (st : Stream), s.stream n = st →
    ((st.encWait = none ∨ s.bitsFull n = true) → Does (.bitstreamRingSpace n) s (fun t => t = s)) ∧
    (st.encWait.isSome = true → s.rcState ≠ 3 → s.rcState ≠ 4 → s.bitsFull n = false → st.closed = false → st.bits.rsv - st.bits.pub ≠ st.bits.nslot →
      Does (.bitstreamRingSpace n) s (fun t => (t.stream n).encWait = none ∧ (t.stream n).encK = st.encK + 1 ∧ (t.stream n).encBand = 0 ∧
        (t.stream n).bits.rsv = st.bits.rsv + 1))

/-- R289, R459, R461, R462, R467: RSEND and RRECV on a live port enter the D queue and the port's list; on a port that is off, has
abandoned its revolution or lacks the IDE it needs, the command is over at once and leaves the panes of an RRECV closed; port 3 is an
illegal encoding, a check of the local side that fails takes its trap, and a full D queue stalls the bundle. That the command on a dead
port fails at once is the model's reading (log 53). R289, R459, R462, R467: a matched pair ends: its command and its entry are gone, a
send's panes go out on the port to the ring window of NEXT, a receive's data, margins and descriptors stand in its panes; what lands with
another requester ID than PREVRID, or over an Insecure IDE stream, is not taken; a pair that ends with an error, or with another count
than its own, abandons its revolution. A pair that its command's engine may not end yet stays, and one whose local side is global memory
is held while the home slices move (R375). What waits while the home slices move is the model's reading (log 113). R27, R460, R462, R467:
where every pair that waits at a port belongs to one revolution, a timeout of it, the loss of the link, an IDE failure or the abort word
of a neighbour leaves no pair, ABORTED and the revolution's numbers in RPSTAT, and the abort word sent to both neighbours, once: of a
revolution that the port abandoned before, until a command of it comes anew, an abort word does nothing more (log 139). A ring mailbox
write sets RMBX and the runtime's mailbox 4 + p, or is dropped and counted where that context has exited; what an Insecure stream carries
is dropped. -/
def Obligations.RingPorts : Prop :=
  (∀ (o : OpDE) (s : State) (i : Instr) (send : Bool) (sp a n p tag : Nat), s.pS o.g = true → n = o.np + 1 →
    p = (s.aR o.aux).toNat % 4 → tag = (s.aR o.aux).toNat / 2 ^ 32 →
    (i = .rsend o ∧ send = true ∧ sp = o.ssp ∧ a = s.deArg 0 o.ssp o.src) ∨ (i = .rrecv o ∧ send = false ∧ sp = o.dsp ∧ a = s.deArg 1 o.dsp o.dst) →
    (p = 3 → Does i s (fun t => t = s.raise { prio := 10, code := 0x01, tinfo := BitVec.ofNat 64 s.iss.word })) ∧
    (p ≠ 3 → ∀ e, firstTrap (s.deChecks sp a n) = some e → Does i s (fun t => t = s.raise e)) ∧
    (p ≠ 3 → firstTrap (s.deChecks sp a n) = none →
      (16 ≤ s.dQueue (s.coreOf (teamOf s.cur)) → Does i s (fun t => t = s.block .stall)) ∧
      (s.dQueue (s.coreOf (teamOf s.cur)) < 16 →
        (s.portDead p = false → Does i s (fun t => Enqueued s t i a a n none ∧ (∀ q, q ≠ p → t.ringQueue q = s.ringQueue q) ∧
          t.ringQueue p = s.ringQueue p ++ [{ team := teamOf s.cur, cmd := s.nextCmd, send := send, tag := tag, units := n, since := s.cycle }])) ∧
        (s.portDead p = true → (∀ c ∈ s.tm.cmds, c.id ≠ s.nextCmd) → Does i s (fun t => t.ringCmds = s.ringCmds ∧ t.tm.cmds = s.tm.cmds ∧
          (send = false → sp = 1 ∨ sp = 2 → ∀ k, k < n → t.tm.shutter (paneItem sp (a / 4096 + k)) = .ringFailed p tag)))))) ∧
  (∀ (port tag : Nat) (send ok : Bool) (data : List Nat) (s : State) (r : RingCmd) (c : Cmd) (sp rid : Nat),
    ((NMap.get {} s.ide (4 * (port + 1) + if send then 0 else 1)).state = 2 ∨ send = false ∧ rid ≠ (s.port port).prevrid →
      Does (.ringPairComplete port { tag := tag, send := send, rid := rid } ok data) s (fun t => t = s)) ∧
    ((NMap.get {} s.ide (4 * (port + 1) + if send then 0 else 1)).state ≠ 2 → (send = false → rid = (s.port port).prevrid) →
    (s.ringQueue port).find? (fun r => r.tag == tag && r.send == send) = some r →
    (s.team r.team).cmds.find? (fun c => c.id == r.cmd) = some c → sp = ringSpace c.op →
    (s.holding = true → sp = 0 →
      Does (.ringPairComplete port { tag := tag, send := send, rid := rid } ok data) s (fun t => t = { s with held := s.held ++ [.ringPair port tag send ok data] })) ∧
    (s.holding = false → s.engineReady r.team c = false → Does (.ringPairComplete port { tag := tag, send := send, rid := rid } ok data) s (fun t => t = s)) ∧
    (s.holding = false → s.engineReady r.team c = true →
      (ok = false ∨ send = false ∧ data.length ≠ c.n * (if sp = 0 then 4096 else 4612)) →
      Does (.ringPairComplete port { tag := tag, send := send, rid := rid } ok data) s (fun t =>
        t = { s with cycle := max s.cycle c.due }.abandon port (tag / 2 ^ 16 % 2 ^ 16) (tag / 8 % 2 ^ 11))) ∧
    (s.holding = false → s.engineReady r.team c = true → (sp = 1 ∨ sp = 2) → ok = true →
      (send = true → Does (.ringPairComplete port { tag := tag, send := send, rid := rid } ok data) s (fun t => t.mem = s.mem ∧
        t.ringQueue port = (s.ringQueue port).erase r ∧ (∀ d ∈ (t.team r.team).cmds, d.id ≠ c.id) ∧
        ∃ x, t.pcieOut = s.pcieOut ++ [x] ∧ x.port = 1 + (c.ring.getD (0, 0)).1 ∧ x.addr = 2 ^ 26 * (s.port (c.ring.getD (0, 0)).1).next ∧ x.data.length = 4612 * c.n ∧
          ∀ k j, k < c.n → j < 4096 → x.data[4612 * k + j]? =
            some (NMap.get 0 (s.team r.team).pane (byteKey sp (4096 * (c.src / 4096 + k) + j))))) ∧
      (send = false → data.length = 4612 * c.n → c.dst % 4096 = 0 → Does (.ringPairComplete port { tag := tag, send := send, rid := rid } ok data) s (fun t =>
        t.mem = s.mem ∧ t.ringQueue port = (s.ringQueue port).erase r ∧ (∀ d ∈ (t.team r.team).cmds, d.id ≠ c.id) ∧
        ∀ k, k < c.n →
          (∀ j, j < 4096 → NMap.get 0 (t.team r.team).pane (byteKey sp (c.dst + 4096 * k + j)) = BitVec.ofNat 8 (data.getD (4612 * k + j) 0)) ∧
          (∀ j, j < 512 → NMap.get 0 (t.team r.team).margin (512 * paneItem sp (c.dst / 4096 + k) + j) =
            BitVec.ofNat 8 (data.getD (4612 * k + 4096 + j) 0)) ∧
          NMap.get 0 (t.team r.team).desc (paneItem sp (c.dst / 4096 + k)) =
            littleEndian (fun j => BitVec.ofNat 8 (data.getD (4612 * k + 4608 + j) 0)) 4))))) ∧
  ((∀ (port layer frame : Nat) (s : State), port < 3 → (layer, frame) ∉ (s.port port).gone →
    (∀ r ∈ s.ringQueue port, r.tag / 2 ^ 16 % 2 ^ 16 = layer ∧ r.tag / 8 % 2 ^ 11 = frame) → s.ringQueue port ≠ [] →
    ∀ i, i = .revolutionTimeout port layer frame ∨ i = .ringLinkDown port ∨
        (∃ k, i = .ideIntegrityFailure (port + 1) k ∧ k < 2 ∧ (NMap.get {} s.ide (4 * (port + 1) + k)).state = 1) ∨
        (∃ n : Bool, i = .ringWindowWrite port n 0 (2 ^ 63 + layer * 2 ^ 32 + frame * 2 ^ 21) ∧
          (NMap.get {} s.ide (4 * (port + 1) + if n then 0 else 1)).state ≠ 2) →
      Does i s (fun t => t.ringQueue port = [] ∧ (t.port port).aborted = true ∧ (t.port port).alayer = layer ∧ (t.port port).aframe = frame ∧
        (t.port port).gone = (layer, frame) :: (s.port port).gone ∧
        (t.port port).sent = (s.port port).sent ++ [(true, 2 ^ 26 * (s.port port).next, 2 ^ 63 + layer * 2 ^ 32 + frame * 2 ^ 21),
          (false, (s.port port).prevrid, 2 ^ 63 + layer * 2 ^ 32 + frame * 2 ^ 21)] ∧
        (i = .ringLinkDown port → (t.port port).ideok = false) ∧
        (∀ k, i = .ideIntegrityFailure (port + 1) k → (t.port port).ideok = false ∧ (NMap.get {} t.ide (4 * (port + 1) + k)).state = 2))) ∧
  (∀ (port : Nat) (n : Bool) (v : Nat) (s : State), port < 3 → (NMap.get {} s.ide (4 * (port + 1) + if n then 0 else 1)).state ≠ 2 →
    (∀ layer frame, layer < 2 ^ 16 → frame < 2 ^ 11 → v = 2 ^ 63 + layer * 2 ^ 32 + frame * 2 ^ 21 → (layer, frame) ∈ (s.port port).gone) →
    Does (.ringWindowWrite port n 0 v) s (fun t => t.mem = s.mem ∧ t.ringCmds = s.ringCmds ∧ t.port port = { s.port port with rmbx := BitVec.ofNat 64 v } ∧
      ((s.strand 262148).run ≠ .exited ∧ (s.strand 262148).run ≠ .terminated →
        NMap.get 0 (t.strand 262148).mbx (4 + port) = BitVec.ofNat 64 v ∧ ((t.strand 262148).arrive.toNat).testBit (4 + port) = true ∧
        t.mbxDrop = s.mbxDrop) ∧
      ((s.strand 262148).run = .exited ∨ (s.strand 262148).run = .terminated → t.strand 262148 = s.strand 262148 ∧
        t.mbxDrop = if s.mbxDrop + 1 < 2 ^ 64 then s.mbxDrop + 1 else s.mbxDrop))) ∧
  (∀ (port : Nat) (n : Bool) (off v : Nat) (s : State), (NMap.get {} s.ide (4 * (port + 1) + if n then 0 else 1)).state = 2 →
    Does (.ringWindowWrite port n off v) s (fun t => t = s)) ∧
  ∀ (port : Nat) (n : Bool) (off v : Nat) (s : State), off ≠ 0 → Does (.ringWindowWrite port n off v) s (fun t => t = s))

/-- R466, R467: the SPDM responder answers each request in its place and a request out of place with an error; it offers version 1.2 and
one suite; keys are set inside a secured session only. The session's state is all that a request changes. The codes of the responses, the
order of requests and the code 0x7F of an error are presumed (log 54). -/
def Obligations.SecurityRequests : Prop :=
  ∀ (p : Nat) (s : State) (d : Spdm), NMap.get {} s.spdm p = d →
    (∀ (i : Instr) (code : Nat) (P : Prop),
      (i = .getVersion p ∧ code = 0x04 ∧ P) ∨ (i = .getCapabilities p ∧ code = 0x61 ∧ (P ↔ d.version = true)) ∨
      (i = .negotiateAlgorithms p ∧ code = 0x63 ∧ (P ↔ d.caps = true)) ∨ (i = .getDigests p ∧ code = 0x01 ∧ (P ↔ d.algs = true)) ∨
      (∃ sl a n, i = .getCertificate p sl a n ∧ code = 0x02 ∧ (P ↔ d.algs = true ∧ sl = 0)) ∨
      (∃ sl n, i = .challenge p sl n ∧ code = 0x03 ∧ (P ↔ d.algs = true ∧ sl = 0)) ∨
      (∃ k n, i = .getMeasurements p k n ∧ code = 0x60 ∧ (P ↔ d.algs = true)) ∨
      (∃ sl x, i = .keyExchange p sl x ∧ code = 0x64 ∧ (P ↔ d.algs = true ∧ sl = 0)) ∨
      (∃ m, i = .finish p m ∧ code = 0x65 ∧ (P ↔ d.session = true ∧ Config.finishOk m = true)) →
      Does i s (fun t => { t with spdm := s.spdm } = s ∧ (∀ q, q ≠ p → NMap.get {} t.spdm q = NMap.get {} s.spdm q) ∧
        ∃ c, (NMap.get {} t.spdm p).out = c :: d.out ∧ (P → c.1 = code) ∧ (¬ P → c.1 = 0x7F) ∧
          (i = .getVersion p → c.2 = [0x12]) ∧ (i = .negotiateAlgorithms p → P → c.2 = [521, 512]) ∧
          (∀ k n, i = .getMeasurements p k n → P → s.measurement k <+: c.2) ∧
          (code = 0x64 → P → (NMap.get {} t.spdm p).session = true) ∧
          (code = 0x65 → ((NMap.get {} t.spdm p).session = true ↔ P)) ∧ (code = 0x65 → P → (NMap.get {} t.spdm p).secured = true) ∧
          (code ≠ 0x65 → (NMap.get {} t.spdm p).secured = true → d.secured = true))) ∧
    ∀ k key, Does (.ideKm p k key) s (fun t => (d.secured = true → k < 2 →
        (∀ j, NMap.get {} t.ide j = if j = 4 * p + k then { state := 1, key := key } else NMap.get {} s.ide j) ∧
        (0 < p → ((t.port (p - 1)).ideok = true ↔ (NMap.get {} t.ide (4 * p)).state = 1 ∧ (NMap.get {} t.ide (4 * p + 1)).state = 1))) ∧
      (d.secured = false ∨ 2 ≤ k → t = s) ∧ t.spdm = s.spdm ∧ t.mem = s.mem)

/-- R410 to R414, R420, R422, R423: a bank that is loaded makes the request; a bank that has drained is free, the images of its teams in
their part of the context slots, the pane descriptors among them; a request is taken 4 cycles after it, or at the end of the repetition or
the switch then under way; the swap ends 96 cycles after that point; at its end the outgoing teams are saved with their registers, and the
incoming one is bound. An exiting team is not pre-empted. A core without the load, the drain, the request or the swap is left as it is.
The cycles of a drain, of the point and of a swap's end, and the form of an image, are the model's choice within the bounds of those rules
(logs 28, 29, 95, 135, 137). R410, R417, R420, R421: the spill unit takes first the items that wait, then departing ones, tiles first,
then W panes, then X panes, then those to be filled; a spill step of 64 cycles for a tile or 18 for a pane writes one departing item, a
pane with its margin, to its place in the context slot, and to nothing else, and clears it; a discardable one is cleared and not written;
a fill step brings one item back from its place, and a discardable one not; with no step under way nothing happens. The order among the
items that wait, and that departing ones come before those to be filled, are the model's choice (logs 28, 136). -/
def Obligations.Preemption : Prop :=
  (∀ (core : Nat) (s : State),
    (∀ b u w, (s.core core).bank b = .loading u → (s.core core).swap = some w → Does (.bankLoadComplete core b) s (fun t =>
      t.cycle = max s.cycle w.loaded ∧ (t.core core).bank b = .ready u ∧ (t.core core).swap = some { w with request := some t.cycle } ∧
      t.mem = s.mem ∧ t.strands = s.strands ∧ t.teams = s.teams ∧ ∀ c, c ≠ core → t.core c = s.core c)) ∧
    (∀ b, ((∀ u, (s.core core).bank b ≠ .loading u) ∨ (s.core core).swap = none) → Does (.bankLoadComplete core b) s (fun t => t = s)) ∧
    (∀ b us since, (s.core core).bank b = .draining us since → (∀ u ∈ us, (s.team u).wp ≤ 1024 ∧ (s.team u).xp ≤ 1024) →
      Does (.bankDrainComplete core b) s (fun t =>
      t.cycle = max s.cycle (since + 700) ∧ (t.core core).bank b = .free ∧ t.strands = s.strands ∧ t.teams = s.teams ∧
      (∀ a, (∀ u ∈ us, a < s.ctxBase + 0xA00000 * u ∨ s.ctxBase + 0xA00000 * u + 0x2B000 ≤ a) → Memory.read t.mem a = Memory.read s.mem a) ∧
      (∀ u ∈ us, ∀ p, (p < (s.team u).wp → littleEndian (fun j => Memory.read t.mem (s.ctxBase + 0xA00000 * u + 0x29000 + 4 * p + j)) 4 % 2 ^ 29 =
          NMap.get 0 (s.team u).desc (32 + p) % 2 ^ 29) ∧
        (p < (s.team u).xp → littleEndian (fun j => Memory.read t.mem (s.ctxBase + 0xA00000 * u + 0x2A000 + 4 * p + j)) 4 % 2 ^ 29 =
          NMap.get 0 (s.team u).desc (1056 + p) % 2 ^ 29)) ∧
      ∀ c, c ≠ core → t.core c = s.core c)) ∧
    (∀ b, (∀ us since, (s.core core).bank b ≠ .draining us since) → Does (.bankDrainComplete core b) s (fun t => t = s)) ∧
    (∀ w r p, (s.core core).swap = some w → w.request = some r → w.swapEnd = none →
      (∀ u ∈ w.outgoing, (s.team u).status = .bound → s.coreOf u = core → s.exiting u = false) → (∀ q ∈ s.launches, q.2.gang = false) →
      p = max s.cycle (max (r + 4) (s.core core).bundleEnd) →
      Does (.preemptionPoint core) s (fun t => t.mem = s.mem ∧ t.strands = s.strands ∧ t.teams = s.teams ∧ t.cycle = p ∧
        (t.core core).swap = some { w with
          outgoing := w.outgoing.filter (fun u => (s.team u).status == .bound && s.coreOf u == core), swapEnd := some (p + 96) } ∧
        (∀ k, (t.core core).slot = some k ↔ (s.core core).slot = some k ∧
          ¬ (k / 4 ∈ w.outgoing ∧ (s.team (k / 4)).status = .bound ∧ s.coreOf (k / 4) = core)) ∧
        ∀ c, c ≠ core → t.core c = s.core c)) ∧
    (((s.core core).swap = none ∨ (∃ w, (s.core core).swap = some w ∧ (w.request = none ∨ w.swapEnd ≠ none ∨
        ∃ u ∈ w.outgoing, (s.team u).status = .bound ∧ s.coreOf u = core ∧ s.exiting u = true))) →
      Does (.preemptionPoint core) s (fun t => t = s)) ∧
    (∀ w e, (s.core core).swap = some w → w.swapEnd = some e → s.rcState ≠ 2 → (s.cluster (clusterOf core)).stop = false →
      (∀ p ∈ s.teams, p.2.owed = false) →
      (∀ v, w.incoming = some v → v ∉ w.outgoing ∧ (s.team v).nstr ≤ 4 ∧ (∀ k ∈ (s.team v).rerun, k / 4 = v) ∧
        ∀ k ∈ s.members v, ∀ f, (s.strand k).parked = some f → f.disp = none) →
      Does (.swapEnd core) s (fun t => t.mem = s.mem ∧ t.cycle = max s.cycle e ∧ (t.core core).swap = none ∧
        (∀ u ∈ w.outgoing, (s.team u).status = .bound → s.coreOf u = core → s.exiting u = false → (s.team u).nstr ≤ 4 → (t.team u).status = .saved ∧
          ∀ i, i < 4 → { t.strand (4 * u + i) with run := (s.strand (4 * u + i)).run, notBefore := (s.strand (4 * u + i)).notBefore,
                                                    bnd := (s.strand (4 * u + i)).bnd } = s.strand (4 * u + i)) ∧
        (∀ u ∈ w.outgoing, s.exiting u = true → (t.team u).status = (s.team u).status) ∧
        ∀ v, w.incoming = some v → (t.team v).status = .bound ∧
          ∀ k, k / 4 = v → { t.strand k with renew := (s.strand k).renew, stores := (s.strand k).stores, pend := (s.strand k).pend } = s.strand k)) ∧
    (((s.core core).swap = none ∨ ∃ w, (s.core core).swap = some w ∧ w.swapEnd = none) → Does (.swapEnd core) s (fun t => t = s))) ∧
  ((∀ (core : Nat) (s : State) (w : Bool × Nat × Nat), (s.core core).work = none → s.nextWork core = some w →
    (s.startUnits.core core).work = some w ∧ (s.startUnits.core core).spillAt = s.cycle) ∧
  (∀ (core : Nat) (s : State),
    ((∀ q ∈ s.wants core, q ∉ s.spills core ∧ q ∉ s.fills core) →
      s.nextWork core = match s.spills core, s.fills core with
        | q :: _, _ => some (false, q)
        | [], q :: _ => some (true, q)
        | [], [] => none) ∧
    (∀ pre q post, s.wants core = pre ++ q :: post → (∀ x ∈ pre, x ∉ s.spills core ∧ x ∉ s.fills core) →
      (q ∈ s.spills core → s.nextWork core = some (false, q)) ∧ (q ∉ s.spills core → q ∈ s.fills core → s.nextWork core = some (true, q))) ∧
    (∀ u i, (u, i) ∈ s.spills core ↔ ∃ p ∈ s.teams, p.1 = u ∧ p.2.spillCore = core ∧ i ∈ p.2.toSpill ∧ s.itemBusy u i = false) ∧
    ∀ u i, (u, i) ∈ s.fills core ↔ ∃ p ∈ s.teams, p.1 = u ∧ u < 65536 ∧ p.2.core = core ∧ p.2.status = .bound ∧ i ∈ p.2.toFill ∧
      i ∉ p.2.toSpill ∧ ∀ h ∈ p.2.hold, h.1 ≠ i) ∧
  ∀ (core : Nat) (s : State),
    (∀ u i T place n disc, s.team u = T →
      place = s.ctxBase + 0xA00000 * u +
        (if i < 32 then 0x30000 + 0x4000 * i else if i < 1056 then 0xB0000 + 0x1200 * (i - 32) else 0x530000 + 0x1200 * (i - 1056)) →
      n = (if i < 32 then 16384 else 4608) → disc = (if i < 32 then NMap.get false T.tdisc i else NMap.get false T.pdisc i) →
      ((s.core core).work = some (false, u, i) → i ∈ T.toSpill → Does (.spillStep core) s (fun t =>
        t.cycle = max s.cycle ((s.core core).spillAt + if i < 32 then 64 else 18) ∧ t.strands = s.strands ∧ (t.core core).work = none ∧
        (∀ a, Memory.read t.mem a =
          if disc = false ∧ place ≤ a ∧ a < place + n then
            if i < 32 then BitVec.ofNat 8 ((NMap.get 0 T.tile (4096 * i + (a - place) / 4)).toNat / 256 ^ ((a - place) % 4))
            else if a < place + 4096 then
              NMap.get 0 T.pane ((if i < 1056 then byteKey 1 (4096 * (i - 32)) else byteKey 2 (4096 * (i - 1056))) + (a - place))
            else NMap.get 0 T.margin (512 * i + (a - place - 4096))
          else Memory.read s.mem a) ∧
        ∀ p ∈ t.teams, p.1 = u → i ∉ p.2.toSpill ∧
          ∀ j, j < 4096 → (if i < 32 then NMap.get 0 p.2.tile (4096 * i + j) = 0 else
            NMap.get 0 p.2.pane ((if i < 1056 then byteKey 1 (4096 * (i - 32)) else byteKey 2 (4096 * (i - 1056))) + j) = 0))) ∧
      ((s.core core).work = some (true, u, i) → i ∈ T.toFill → T.core = core → Does (.fillStep core) s (fun t =>
        t.mem = s.mem ∧ t.strands = s.strands ∧ t.cycle = max s.cycle ((s.core core).spillAt + if i < 32 then 64 else 18) ∧
        (t.core core).work = none ∧ i ∉ (t.team u).toFill ∧ (∀ v, v ≠ u → t.team v = s.team v) ∧
        (disc = true → (t.team u).tile = T.tile ∧ (t.team u).pane = T.pane ∧ (t.team u).margin = T.margin) ∧
        (disc = false → ∀ j, j < n →
          (if i < 32 then BitVec.ofNat 8 ((NMap.get 0 (t.team u).tile (4096 * i + j / 4)).toNat / 256 ^ (j % 4))
          else if j < 4096 then
            NMap.get 0 (t.team u).pane ((if i < 1056 then byteKey 1 (4096 * (i - 32)) else byteKey 2 (4096 * (i - 1056))) + j)
          else NMap.get 0 (t.team u).margin (512 * i + (j - 4096))) = Memory.read s.mem (place + j))))) ∧
    ((∀ q, (s.core core).work ≠ some (false, q)) → Does (.spillStep core) s (fun t => t = s)) ∧
    ((∀ q, (s.core core).work ≠ some (true, q)) → Does (.fillStep core) s (fun t => t = s)))

/-- R15, R346 to R348: a core can host a team where the four limits hold after the binding; it is placed on the first core of the
placement order; a selection takes a stream task of least slack, else the best-effort task of the highest effective priority; of the
best-effort teams of a core the one of the lowest effective priority goes first, and of equal ones the youngest. R175, R346, R422, R433:
at its exit the stores of a team's strands are published at .sys, its completion and its merged flags go to the JCB of its launch, and it
leaves its context slot empty, its strands with it; a selection that finds a launch of one team that can be bound binds it in the lowest
free slot on the place found, and one whose header is refused ends that launch; with no live launch it binds nothing; a stall bundle takes
one cycle of its core. That a selection also comes where only reservations change is the model's choice (log 25). -/
def Obligations.TeamsComeAndGo : Prop :=
  ((∀ (s : State) (l c : Nat) (h : LaunchHdr), s.canHost l h c = true ↔
    (∀ t ∈ s.residents c, (s.team t).launch ≠ l) ∧ s.isCompute (c / 32) = true ∧ (s.cluster (c / 4)).stop = false ∧
    ((s.core c).resv = none ∨ (s.core c).resv = some l) ∧
    ((s.residents c).map (fun t => (s.team t).nstr)).sum + h.strands ≤ 4 ∧ ((s.residents c).map (fun t => (s.team t).tiles)).sum + h.tiles ≤ 32 ∧
    ((s.residents c).map (fun t => (s.team t).wp)).sum + h.wp ≤ 1024 ∧ ((s.residents c).map (fun t => (s.team t).xp)).sum + h.xp ≤ 1024) ∧
  (∀ (s : State) (c t : Nat), t ∈ s.residents c ↔ ∃ p ∈ s.teams, p.1 = t ∧ t < 65536 ∧ p.2.core = c ∧ (p.2.status = .bound ∨ p.2.status = .loading)) ∧
  (∀ (s : State) (l c : Nat) (h : LaunchHdr) (hot ran : Nat → Prop), (∀ x ∈ s.coreList, s.flat x < 256 ∧ (s.cluster (x / 4)).temp < 2 ^ 24) →
    (∀ x, hot x ↔ (s.cluster (x / 4)).hot = true) → (∀ x, ran x ↔ ∃ p ∈ (s.launch l).ranOn, p.2 = x) → s.place l h = some c →
    c ∈ s.coreList ∧ s.canHost l h c = true ∧ ∀ x ∈ s.coreList, s.canHost l h x = true →
      (hot c → hot x) ∧ ((hot c ↔ hot x) → (ran x → ran c) ∧ ((ran c ↔ ran x) →
        (s.cluster (c / 4)).temp / 256 ≤ (s.cluster (x / 4)).temp / 256 ∧
        ((s.cluster (c / 4)).temp / 256 = (s.cluster (x / 4)).temp / 256 → s.flat c ≤ s.flat x)))) ∧
  (∀ (s : State) (ls : List Nat) (l : Nat), (∀ x ∈ ls, (s.launch x).seq < 2 ^ 64 ∧ (s.launch x).queue < 1024 ∧ (s.launch x).tReady < 2 ^ 64 ∧
      s.deadlineOf x < 2 ^ 64 ∧ s.cycle + 256 * (s.launch x).cost ≤ 2 ^ 63 + s.deadlineOf x) → s.select ls = some l →
    l ∈ ls ∧
    ((∃ x ∈ ls, (s.launch x).queue < 512) → (s.launch l).queue < 512 ∧ ∀ x ∈ ls, (s.launch x).queue < 512 →
      (s.deadlineOf l : Int) - s.cycle - 256 * (s.launch l).cost ≤ (s.deadlineOf x : Int) - s.cycle - 256 * (s.launch x).cost) ∧
    ((∀ x ∈ ls, 512 ≤ (s.launch x).queue) → ∀ x ∈ ls, s.effPrio x ≤ s.effPrio l ∧ (s.effPrio x = s.effPrio l →
      (s.launch l).tReady ≤ (s.launch x).tReady ∧ ((s.launch l).tReady = (s.launch x).tReady → (s.launch l).queue ≤ (s.launch x).queue)))) ∧
  (∀ (s : State) (l : Nat), 512 ≤ (s.launch l).queue → (s.launch l).queue < 576 → s.effPrio l =
    min 63 (NMap.get ((s.launch l).queue - 512) s.qcwRank (s.launch l).queue + (s.cycle - (s.launch l).tReady) / 2 ^ 22)) ∧
  ∀ (s : State) (h : LaunchHdr) (res : List Nat) (n t : Nat) (post : List Nat), (∀ x ∈ res, (s.team x).born ≤ 2 ^ 63) →
    s.victims h res (n + 1) = t :: post → s.fitsWith res h = false ∧ t ∈ res ∧ (s.team t).status = .bound ∧ 512 ≤ (s.launch (s.team t).launch).queue ∧
      s.exiting t = false ∧ ∀ x ∈ res, (s.team x).status = .bound → 512 ≤ (s.launch (s.team x).launch).queue → s.exiting x = false →
        s.effPrio (s.team t).launch ≤ s.effPrio (s.team x).launch ∧
        (s.effPrio (s.team t).launch = s.effPrio (s.team x).launch → (s.team x).born ≤ (s.team t).born)) ∧
  ((∀ (u : Nat) (s : State),
    (s.canExit u = true → (s.team u).nstr ≤ 4 → Does (.teamExit u) s (fun t => t.team u = {} ∧ ∀ k ∈ s.members u, t.strand k = {})) ∧
    (s.canExit u = true → ∀ v w : State, v = s.forEach (s.members u) State.exitPublish →
      w = { v with log := v.log.map (fun p => if p.agent == .engine u && p.scope = 2 then { p with scope := 3 } else p) } →
      (s.launch (s.team u).launch).exited + 1 < (((s.launch (s.team u).launch).hdr.map (·.cores)).getD 0) →
      Does (.teamExit u) s (fun t => t.mem = (w.launchJcb (s.team u).launch { count := 1, flags :=
        ((s.members u).foldl (fun f k => f ||| (v.strand k).flags) 0).toNat }).mem ∧ (t.launch (s.team u).launch).exited = (s.launch (s.team u).launch).exited + 1)) ∧
    (s.canExit u = false → Does (.teamExit u) s (fun t => t = s))) ∧
  (∀ (s v : State) (k : Nat) (cells : List (Nat × Nat × Byte)), s.pubCells k ((s.strand k).toPublish 3) = (v, cells, []) → lastStores cells ≠ [] →
    (s.exitPublish k).mem = (lastStores cells).foldl (fun m p => Memory.write m p.1 p.2) v.mem ∧
    ∃ p, (s.exitPublish k).log = v.log ++ [p] ∧ p.scope = 3 ∧ p.agent = .strand k ∧ p.cells.map (fun c => (c.1, c.2.2)) = lastStores cells) ∧
  (∀ (s v : State) (l va pa leaf x : Nat) (j : JcbUpdate), (s.launch l).jcb = some va → va < 2 ^ 56 → s.holding = false →
    s.access 0 (((s.launch l).hdr.map (·.asid)).getD (s.launch l).subAsid) 0 va .write = (v, .ok pa 0 leaf x) → j.err = none → j.flags < 128 →
    (s.launchJcb l j).readJcb pa = { v.readJcb pa with done := min ((v.readJcb pa).done + j.count) (2 ^ 32 - 1), flags := (v.readJcb pa).flags ||| j.flags }) ∧
  (∀ (s r : State) (ls : List Nat),
    r = ({ s with cycle := if s.lastSel = 0 then s.cycle else max s.cycle (s.lastSel + 4) } : State).noteReady → ls = r.mayLaunches →
    (ls = [] → Does .distributorSelection s (fun t => t.teams = s.teams ∧ t.strands = s.strands ∧ t.mem = s.mem ∧ t.launches = r.launches ∧
      t.cycle = (if s.lastSel = 0 then s.cycle else max s.cycle (s.lastSel + 4)) ∧ t.lastSel = t.cycle)) ∧
    ∀ q l, q = { (r.forEach ls State.touchHeader).reserve ls with lastSel := r.cycle } →
      q.select (ls.filter (fun l => (ls.filter q.bindable).contains l || q.mayPreempt l)) = some l →
      (∀ code n, q.readHeader l = .error (code, n) → Does .distributorSelection s (fun t => (t.launch l).live = false ∧ t.teams = s.teams)) ∧
      (∀ h c k, q.readHeader l = .ok h → q.bindable l = true →
        h.cores = 1 → (q.launch l).killed = false → (q.launch l).task = none → (q.launch l).bound = 0 → (q.launch l).slots = [] →
        q.place l h = some c → q.freeSlot = some k →
        Does .distributorSelection s (fun t => (t.team k).status = .bound ∧ (t.team k).launch = l ∧ (t.team k).core = c ∧ (t.team k).idx = 0 ∧
          (t.team k).asid = h.asid ∧ (t.team k).nstr = h.strands ∧ (t.launch l).bound = 1 ∧ (t.launch l).slots = [k] ∧
          (∀ v, v ≠ k → t.team v = s.team v) ∧
          ∀ i, i < h.strands → (t.strand (4 * k + i)).pc = BitVec.ofNat 56 h.entry ∧ (t.strand (4 * k + i)).parked = none ∧
            ∀ j, NMap.get 0 (t.strand (4 * k + i)).a j = if j = 0 then BitVec.ofNat 64 h.arg else 0))) ∧
  ∀ (core : Nat) (s : State), Does (.stallBundle core) s (fun t => OnlyCores s t ∧ (∀ c, c ≠ core → t.core c = s.core c) ∧
    t.core core = { s.core core with nextIssue := max s.cycle (s.core core).nextIssue + 1 }))

/-- R425, R427, R435, R439, R440, R480: a control period ends at a multiple of 65,536 cycles; each cluster's TEMP is its sample, its HOT
bit follows the threshold and its hysteresis, its STOP bit the limits of 105 and 100 degrees, but that of a fenced course stays; REFX2
follows the limits of 85 and 83 degrees, and the schedule that refreshes does not change yet; no byte of memory changes. R313, R429, R430,
R433, R436, R439: a stopped cluster with no team and no matrix work gets the target P(0); a new pattern comes at the next multiple of 16
cycles; a dwell ends; a stretch takes the next cycle from every core of its course, and comes at most once in four cycles; a refresh
operation takes the next of 1,024 places, on the next multiple of 72 cycles, or of 36 on the faster schedule, and the schedule is from
then on the one that REFX2 asks for (when operations come is the model's choice, log 109). Of a core, a change of the clock moves no more
than the end and the charges of the matrix operation that runs, and the end of the bundle that issues (R424). -/
def Obligations.HeatAndClocks : Prop :=
  (∀ (temps : List Nat) (power : Nat) (s : State), Does (.controlPeriodEnd temps power) s (fun t => t.mem = s.mem ∧
    t.cycle = max s.cycle (65536 * (s.period + 1)) ∧ t.period = s.period + 1 ∧
    (∀ c, c < 6 → (t.course c).fast = (s.course c).fast ∧ (∀ k, k < 8 → (t.cluster (8 * c + k)).temp ≤ (t.course c).hotsens) ∧
      ((t.course c).hotsens = 0 ∨ ∃ k, k < 8 ∧ (t.cluster (8 * c + k)).temp = (t.course c).hotsens) ∧
      ((t.course c).refx2 = true ↔ 85 * 256 < (t.course c).hotsens ∨ (s.course c).refx2 = true ∧ 83 * 256 < (t.course c).hotsens)) ∧
    ∀ k, k < 48 → (t.cluster k).temp = temps.getD k (s.cluster k).temp ∧
      ((t.cluster k).hot = true ↔ s.isCompute (k / 8) = true ∧
        (if (s.cluster k).hot then (s.hotth - s.hyst) * 256 else s.hotth * 256) < (t.cluster k).temp) ∧
      ((t.cluster k).stop = true ↔ 105 * 256 ≤ (t.cluster k).temp ∨
        (s.cluster k).stop = true ∧ (100 * 256 < (t.cluster k).temp ∨ s.boot.cfence.testBit (k / 8) = true)))) ∧
  (∀ (c k : Nat) (s : State) (K : Cluster), s.cluster (8 * c + k) = K →
    (K.stop = true → s.clusterM (8 * c + k) = false → (∀ i, i < 4 → s.residents (4 * (8 * c + k) + i) = []) →
      Does (.clusterHalt c k) s (fun t => { t with clusters := s.clusters, cores := s.cores } = s ∧
        t.cluster (8 * c + k) = { K with target := 0, tset := s.cycle } ∧ (∀ j, j ≠ 8 * c + k → t.cluster j = s.cluster j) ∧
        (∀ n,
          { t.core n with mrun := (s.core n).mrun, meter := (s.core n).meter, bundleEnd := (s.core n).bundleEnd, nextIssue := (s.core n).nextIssue } =
            s.core n))) ∧
    ((K.stop = false ∨ s.clusterM (8 * c + k) = true ∨ ∃ i, i < 4 ∧ s.residents (4 * (8 * c + k) + i) ≠ []) →
      Does (.clusterHalt c k) s (fun t => t = s)) ∧
    (K.target ≠ K.pattern → Does (.patternChange c k) s (fun t => { t with clusters := s.clusters, cycle := s.cycle } = s ∧
      t.cycle = max s.cycle ((K.tset / 16 + 1) * 16) ∧ t.cluster (8 * c + k) = { K with pattern := K.target } ∧
      (∀ j, j ≠ 8 * c + k → t.cluster j = s.cluster j))) ∧
    (K.target = K.pattern → Does (.patternChange c k) s (fun t => t = s)) ∧
    (∀ u, K.dwellEnd = some u → Does (.dwellEnd c k) s (fun t => { t with clusters := s.clusters, cycle := s.cycle } = s ∧
      t.cycle = max s.cycle u ∧ t.cluster (8 * c + k) = { K with dwellEnd := none } ∧
      (∀ j, j ≠ 8 * c + k → t.cluster j = s.cluster j))) ∧
    (K.dwellEnd = none → Does (.dwellEnd c k) s (fun t => t = s)) ∧
    ((∀ u, (s.course c).stretch = some u → u + 4 ≤ s.cycle + 1) → Does (.droopStretch c) s (fun t =>
      { t with courses := s.courses, cores := s.cores } = s ∧
      t.course c = { s.course c with droops := (s.course c).droops + 1, stretch := some (s.cycle + 1) } ∧
      (∀ d, d ≠ c → t.course d = s.course d) ∧ (∀ core, courseOf core = c → t.passes core (s.cycle + 1) = false) ∧
      (∀ n,
          { t.core n with mrun := (s.core n).mrun, meter := (s.core n).meter, bundleEnd := (s.core n).bundleEnd, nextIssue := (s.core n).nextIssue } =
            s.core n))) ∧
    (∀ u, (s.course c).stretch = some u → s.cycle + 1 < u + 4 → Does (.droopStretch c) s (fun t => t = s)) ∧
    ∀ n, n = (if (s.course c).fast then 36 else 72) → Does (.refreshOperation c) s (fun t =>
      { t with courses := s.courses, cycle := s.cycle } = s ∧ t.cycle = max s.cycle (((s.course c).refreshed / n + 1) * n) ∧
      t.course c = { s.course c with refresh := ((s.course c).refresh + 1) % 1024, refreshed := t.cycle, fast := (s.course c).refx2 } ∧
      ∀ d, d ≠ c → t.course d = s.course d))

/-- R366, R480: a map is legal for a class where, of the courses that are not fenced, it makes one to MAXC compute courses and leaves one
a store course, and, but in class A+, no three consecutive courses are compute courses. R332, R333, R372: the state fits a map of N'
compute cores and NS' store courses where the sum of U over the streams is at most the bound of CAP for N', the sum of STG at most 2,048
NS', and no gang at the distributor has more than N' cores. R371 to R373: the test step answers CRSET with code 1 for an illegal map, 2
for one that the state does not fit, else 0, and an accepted map begins the drain; the drain ends when nothing is left on a core; the
flush ends with an empty block cache, the new map, the next epoch and the new bounds. -/
def Obligations.RoleChanges : Prop :=
  ((∀ (cls fence m n : Nat), n = ((List.range 6).filter (fun c => m.testBit c)).length →
    (legalMap cls fence m = true ↔ cls < 3 ∧ 1 ≤ n ∧ n ≤ (if cls = 0 then 3 else if cls = 1 then 4 else 5) ∧
      (∃ c, c < 6 ∧ m.testBit c = false ∧ fence.testBit c = false) ∧ (∀ c, c < 6 → m.testBit c = true → fence.testBit c = false) ∧
      (cls = 2 ∨ ∀ c, c < 4 → ¬ (m.testBit c = true ∧ m.testBit (c + 1) = true ∧ m.testBit (c + 2) = true)))) ∧
  ∀ (s : State) (m n ns : Nat), n = ((List.range 6).filter (fun c => m.testBit c)).length →
    ns = ((List.range 6).filter (fun c => !m.testBit c && !s.boot.cfence.testBit c)).length →
    (s.testMap m = true ↔
      (((s.streams.filter (fun p => p.2.live)).map (fun p =>
        (((p.2.rungs[p.2.minrung]?).getD (0, 0, 0)).1 * 256 * 65536 + p.2.period - 1) / p.2.period)).sum ≤ 95 * (32 * n) * 65536 / 100 ∧
      ((s.streams.filter (fun p => p.2.live)).map (fun p => 1 + p.2.bands *
        ((96 * (8 * ((p.2.rungs[0]?).getD (0, 0, 0)).2.1) * (if p.2.codec % 2 = 1 then 2 else 1) + 65535) / 65536))).sum ≤ 2048 * ns ∧
      ∀ p ∈ s.launches, p.2.live = true → ∀ h, (s.readHeader p.1 = .ok h ∨ ∃ code, s.readHeader p.1 = .error (code, some h)) →
        h.gang = true → h.cores ≤ 32 * n))) ∧
  (∀ (s : State),
    (∀ code, s.rcState = 1 → s.held = [] →
      (code = 1 ∧ legalMap s.cls s.boot.cfence s.pendMap = false ∨
       code = 2 ∧ legalMap s.cls s.boot.cfence s.pendMap = true ∧ s.testMap s.pendMap = false ∨
       code = 0 ∧ legalMap s.cls s.boot.cfence s.pendMap = true ∧ s.testMap s.pendMap = true) →
      Does .roleChangeTestDone s (fun t => t.mem = s.mem ∧ t.teams = s.teams ∧ t.roleMap = s.roleMap ∧
        (code ≠ 0 ∨ s.rcDry = true → t.pendMap = s.roleMap) ∧ (t.rcState = if code = 0 ∧ s.rcDry = false then 2 else 0) ∧
        ∀ p r, (s.strand s.rcStrand).pend = p :: r → p.global = false → p.done = false → p.req = none →
          (t.strand s.rcStrand).pend = { p with done := true, value := code, due := s.cycle } :: r)) ∧
    (s.rcState ≠ 1 → Does .roleChangeTestDone s (fun t => t = s)) ∧
    (s.rcState = 2 → s.drained = true → Does .roleChangeDrainDone s (fun t => t = { s with rcState := 3 })) ∧
    ((s.rcState ≠ 2 ∨ s.drained = false) → Does .roleChangeDrainDone s (fun t => t = s)) ∧
    (s.rcState = 3 → s.held = [] → Does .roleChangeFlushDone s (fun t => t.mem = s.mem ∧ t.strands = s.strands ∧ t.teams = s.teams ∧
      t.rcState = 0 ∧ t.cache = [] ∧ t.roleMap = s.pendMap ∧ t.pendMap = s.pendMap ∧ t.epoch = s.epoch + 1 ∧
      t.cap = 95 * (32 * t.computeCourses.length) * 65536 / 100 ∧ t.stagel = min s.stagel (2048 * t.storeCourses.length))) ∧
    (s.rcState ≠ 3 → Does .roleChangeFlushDone s (fun t => t = s)))

/-- R467, R474, R475, R477, R478, R482 to R484: a plinth reset, whatever its cause, leaves only module flash, and a start begins at step 1
under the next boot number; a step that fails resets the plinth with cause 4 and its record says so; a step that passes is followed by the
next, and step 10 by READY; step 2 and step 9 load and measure the two parts of the image (where the runtime part goes is open, log 119),
step 6 clears memory but the firmware's, step 8 puts the partition and CTXPOOL in force; a fence that an alternate keeps stays in flash; a
loss of power leaves flash. The host's acts need a stream of its port that is not Insecure (log 122). -/
def Obligations.Starts : Prop :=
  ∀ (s : State),
    (∀ i cause, (i = .powerOn ∧ cause = 0) ∨ (i = .hostHotReset ∧ s.boot.powered = true ∧ cause = 1) ∨
        (i = .mctlReset ∧ (NMap.get {} s.ide 0).state ≠ 2 ∧ (NMap.get {} s.ide 1).state ≠ 2 ∧ cause = 2) ∨
        (i = .stepWatchdog ∧ s.boot.powered = true ∧ s.boot.ready = false ∧ s.boot.fatal = false ∧ s.boot.recovery = false ∧ cause = 3) →
      Does i s (fun t => t.boot.rstcause = cause ∧ t.boot.bootn = s.flash.bootn + 1 ∧ t.boot.step = 1 ∧ t.boot.ready = false ∧
        t.flash.image = s.flash.image ∧ t.mem = [] ∧ t.strands = [] ∧ t.teams = [] ∧ t.launches = [] ∧ t.streams = [] ∧ t.cycle = 0)) ∧
    (∀ i, (i = .hostHotReset ∧ s.boot.powered = false) ∨ (i = .stepWatchdog ∧ s.boot.ready = true) → Does i s (fun t => t = s)) ∧
    Does .powerLoss s (fun t => t.boot.powered = false ∧ t.mem = [] ∧ t.strands = [] ∧ t.flash.image = s.flash.image ∧
      t.flash.journal = s.flash.journal) ∧
    (∀ pass mask detail, (s.boot.ready = true ∨ s.boot.fatal = true ∨ s.boot.powered = false ∨ s.boot.recovery = true) →
      Does (.startStepEnd pass mask detail) s (fun t => t = s)) ∧
    (∀ mask detail, s.boot.ready = false → s.boot.fatal = false → s.boot.powered = true → s.boot.recovery = false → s.flash.jnext ≠ s.boot.slot →
      Does (.startStepEnd false mask detail) s (fun t => t.boot.rstcause = 4 ∧ t.boot.bootn = s.flash.bootn + 1 ∧ t.boot.step = 1 ∧ t.mem = [] ∧
        (NMap.get {} t.flash.journal s.boot.slot).outcome = 1)) ∧
    (∀ detail, s.boot.ready = false → s.boot.fatal = false → s.boot.powered = true → s.boot.recovery = false → s.boot.variant = 0 →
      s.boot.cfence = 0 → s.boot.chfence = 0 → s.flash.cfence = 0 → s.flash.chfence = 0 → s.cls < 3 →
      (s.boot.step = 10 → Does (.startStepEnd true 0 detail) s (fun t => t.boot.ready = true ∧ t.mem = s.mem ∧
        (NMap.get {} t.flash.journal s.boot.slot).outcome = 0)) ∧
      (s.boot.step ∈ [1, 3, 4, 5, 7] → Does (.startStepEnd true 0 detail) s (fun t => t.boot.step = s.boot.step + 1 ∧
        t.boot.bootn = s.boot.bootn ∧ t.mem = s.mem)) ∧
      (s.boot.step = 2 → imageOk s.flash.image s.flash.floor = true → s.flash.unfinished = false → Does (.startStepEnd true 0 detail) s (fun t =>
        t.boot.step = 3 ∧ t.boot.kver = s.flash.version ∧ (t.strand (4 * keystoneTeam)).level = 2 ∧
        t.boot.meas1 = some (Config.sha512 ((List.range s.flash.klen).map (fun j => (NMap.get 0 s.flash.image (512 + j)).toNat))) ∧
        ∀ a, Memory.read t.mem a = if 2 ^ 52 ≤ a ∧ a < 2 ^ 52 + min s.flash.klen 262144 then NMap.get 0 s.flash.image (512 + (a - 2 ^ 52))
          else Memory.read s.mem a)) ∧
      (s.boot.step = 2 → imageOk s.flash.image s.flash.floor = false ∨ s.flash.unfinished = true → Does (.startStepEnd true 0 detail) s (fun t =>
        t.boot.rstcause = 4 ∧ t.boot.step = 1)) ∧
      (s.boot.step = 6 → Does (.startStepEnd true 0 detail) s (fun t => (t.boot.step = 7 ∨ t.boot.step = 8) ∧
        ∀ a, Memory.read t.mem a = if 2 ^ 52 ≤ a then Memory.read s.mem a else 0)) ∧
      (s.boot.step = 8 → legalMap s.cls 0 s.flash.cpref = true → Does (.startStepEnd true 0 detail) s (fun t => t.boot.step = 9 ∧
        t.roleMap = s.flash.cpref ∧ t.epoch = 1 ∧ t.ctxBase = detail / 2 ^ 16 % 2 ^ 36 * 2 ^ 16 ∧ t.ctxN = detail % 2 ^ 16 ∧ t.mem = s.mem)) ∧
      (s.boot.step = 9 → runtimeOk s.flash.image = true → Does (.startStepEnd true 0 detail) s (fun t => t.boot.step = 10 ∧
        t.boot.rver = s.flash.version ∧ (t.strand (4 * runtimeTeam)).level = 1 ∧
        t.boot.meas2 = some (Config.sha512 ((List.range s.flash.rlen).map (fun j => (NMap.get 0 s.flash.image (512 + s.flash.klen + j)).toNat))) ∧
        ∃ f, f % 65536 = 0 ∧ ∀ a, Memory.read t.mem a = if f ≤ a ∧ a < f + s.flash.rlen
          then NMap.get 0 s.flash.image (512 + s.flash.klen + (a - f)) else Memory.read s.mem a))) ∧
    (∀ mask detail, s.boot.ready = false → s.boot.fatal = false → s.boot.powered = true → s.boot.recovery = false → s.boot.variant = 1 →
      s.boot.cfence = 0 → s.boot.chfence = 0 → s.flash.cfence = 0 → (s.boot.step = 3 ∨ s.boot.step = 4) → mask < 64 →
      2 ≤ ((List.range 6).filter (fun c => !mask.testBit c)).length → (∃ m, m < 64 ∧ legalMap s.cls mask m = true) →
      Does (.startStepEnd true mask detail) s (fun t => t.boot.cfence = mask ∧ t.flash.cfence = mask ∧ (mask ≠ 0 → t.boot.degraded = true) ∧
        t.boot.step = s.boot.step + 1 ∧ ∀ c k, c < 6 → k < 8 → mask.testBit c = true → (t.cluster (8 * c + k)).stop = true)) ∧
    ((NMap.get {} s.ide 0).state ≠ 2 → (NMap.get {} s.ide 1).state ≠ 2 →
    Does .mctlJclr s (fun t => t = { s with flash := { s.flash with jclr := true } }) ∧
    ∀ n, (s.boot.recovery = false → Does (.mctlRload n) s (fun t => t = s)) ∧
      (s.boot.recovery = true → Does (.mctlRload n) s (fun t =>
        if imageOk (s.mem.filter (fun (c : Host.Cell) => decide (c.1 < n))) s.flash.floor = true ∧
            runtimeOk (s.mem.filter (fun (c : Host.Cell) => decide (c.1 < n))) = true
        then t.flash.image = s.mem.filter (fun (c : Host.Cell) => decide (c.1 < n)) ∧ t.boot.rstcause = 4 else t = s)))

/-- R104, R375, R455 to R457, R467, R474, R484: a window access translates under the window's ASID, byte by byte, and is performed at the
home in units of 8 bytes; each unit of a read is what is in memory, or what is published at .sys where a value is published at a narrower
scope; a write is published at .sys, and a compare that fails writes nothing; one that faults is counted, answered or dropped; while home
slices move, an access that reaches normal memory is held with its address and ASID, and every access after it; a closed window, one
disabled or before READY, completes reads with Unsupported Request and drops writes; in RECOVERY the window reaches physical memory from
address 0. The host's requests are dropped while a stream of its port is Insecure (that either stream carries them is the model's choice,
log 122). That a read of bytes published at a narrower scope races, and what waits while the home slices move, are the model's reading
(logs 76, 113). -/
def Obligations.WindowAccesses : Prop :=
  ∀ (s : State) (off n : Nat) (bytes : List Nat) (op value compare : Nat),
    let va := s.bar2Va off
    let cut := (NMap.get {} s.ide 0).state = 2 ∨ (NMap.get {} s.ide 1).state = 2
    let unread : State → State → Prop := fun s' t => t.mem = s'.mem ∧ t.log = s'.log ∧ t.strands = s'.strands ∧ t.teams = s'.teams
    let open' := s.boot.recovery = true ∨ s.boot.ready = true ∧ s.b2en = true
    (s.boot.recovery = false → va = s.b2vb * 2 ^ 30 / 2 ^ s.b2size * 2 ^ s.b2size + off % 2 ^ s.b2size) ∧
    (∀ kd, s.boot.recovery = false → s.bar2Cells s.b2asid va kd 1 = match s.access 0 s.b2asid 0 va kd with
      | (s', .ok pa ty _ _) => (s', if targetOf pa = .dram then some [(pa, ty)] else none)
      | (s', _) => (s', none)) ∧
    (∀ kd m, s.boot.recovery = true → va = off ∧ s.bar2Cells s.b2asid va kd m = (s, some ((List.range m).map (fun i => (off + i, 2))))) ∧
    (cut → ∀ i ∈ [Instr.bar2Read off n, .bar2Write off bytes, .bar2Atomicop off n op value compare], Does i s (fun t => t = s)) ∧
    (¬ cut → ¬ open' →
      Does (.bar2Read off n) s (fun t => t = { s with hostOut := s.hostOut ++ [(1, [])] }) ∧
      Does (.bar2Write off bytes) s (fun t => t = s) ∧
      Does (.bar2Atomicop off n op value compare) s (fun t => t = { s with hostOut := s.hostOut ++ [(1, [])] })) ∧
    (n ≠ 4 ∧ n ≠ 8 ∨ 2 < op →
      ¬ cut → Does (.bar2Atomicop off n op value compare) s (fun t => t = { s with hostOut := s.hostOut ++ [(1, [])] })) ∧
    (∀ H : AccessKind → Nat → Prop, (∀ kd m, H kd m ↔ (s.rcState = 3 ∨ s.rcState = 4) ∧ s.boot.recovery = false ∧
        ((∃ r ∈ s.held, r.isBar2 = true) ∨ ∃ cells, (s.bar2Cells s.b2asid va kd m).2 = some cells ∧ ∃ c ∈ cells, c.2 < 2)) →
      ¬ cut → open' →
      (H .read n → Does (.bar2Read off n) s (fun t => t = { s with held := s.held ++ [.bar2Read s.b2asid va n] })) ∧
      (H .write bytes.length → Does (.bar2Write off bytes) s (fun t => t = { s with held := s.held ++ [.bar2Write s.b2asid va bytes] })) ∧
      (H .write n → (n = 4 ∨ n = 8) → op ≤ 2 → Does (.bar2Atomicop off n op value compare) s (fun t =>
        t = { s with held := s.held ++ [.bar2Atomic s.b2asid va n op value compare] })) ∧
      (¬ H .read n →
        (∀ s', s.bar2Cells s.b2asid va .read n = (s', none) → Does (.bar2Read off n) s (fun t =>
          t = { s'.bar2Fault va with hostOut := s'.hostOut ++ [(2, [])] })) ∧
        (∀ s' cells, s.bar2Cells s.b2asid va .read n = (s', some cells) → Does (.bar2Read off n) s (fun t => unread s' t ∧
          ∃ pick : Nat → Bool, t.hostOut = s'.hostOut ++ [(0, (List.range cells.length).map (fun j =>
            (if pick ((va % 8 + j) / 8) then Memory.read s'.mem (cells.getD j (0, 0)).1 else s'.sysByte (cells.getD j (0, 0)).1).toNat))]))) ∧
      (¬ H .write bytes.length →
        (∀ s', s.bar2Cells s.b2asid va .write bytes.length = (s', none) → Does (.bar2Write off bytes) s (fun t => t = s'.bar2Fault va)) ∧
        (∀ s' cells, s.bar2Cells s.b2asid va .write bytes.length = (s', some cells) → cells.length = bytes.length →
          Does (.bar2Write off bytes) s (fun t => t.strands = s'.strands ∧ t.teams = s'.teams ∧ t.hostOut = s'.hostOut ∧
            (∃ ps, t.log = s'.log ++ ps ∧ ∀ p ∈ ps, p.scope = 3 ∧ p.cells.length ≤ 8) ∧
            (∀ a, a ∉ cells.map (·.1) → Memory.read t.mem a = Memory.read s'.mem a) ∧
            ((cells.map (·.1)).Nodup → ∀ j, j < bytes.length →
              Memory.read t.mem (cells.getD j (0, 0)).1 = BitVec.ofNat 8 (bytes.getD j 0))))) ∧
      (¬ H .write n → (n = 4 ∨ n = 8) → op ≤ 2 →
        (∀ s', s.bar2Cells s.b2asid va .write n = (s', none) → Does (.bar2Atomicop off n op value compare) s (fun t =>
          t = { s'.bar2Fault va with hostOut := s'.hostOut ++ [(2, [])] })) ∧
        (∀ s' cells old, s.bar2Cells s.b2asid va .write n = (s', some cells) → cells.length = n → (cells.map (·.1)).Nodup →
          old = littleEndian (fun j => Memory.read s'.mem (cells.getD j (0, 0)).1) n →
          Does (.bar2Atomicop off n op value compare) s (fun t => t.hostOut = s'.hostOut ++ [(0, [old])] ∧ t.strands = s'.strands ∧
            (∀ a, a ∉ cells.map (·.1) → Memory.read t.mem a = Memory.read s'.mem a) ∧
            littleEndian (fun j => Memory.read t.mem (cells.getD j (0, 0)).1) n =
              (if op = 0 then old + value else if op = 1 then value else if old = compare % 2 ^ (8 * n) then value else old) % 2 ^ (8 * n) ∧
            if op = 2 ∧ old ≠ compare % 2 ^ (8 * n) then t.log = s'.log
            else ∃ p, t.log = s'.log ++ [p] ∧ p.scope = 3 ∧ p.atomic = true))))

/-- R332, R341, R349, R390, R400, R403, R452 to R455, R458, R459, R467, R474: what each write to the control block that has behaviour of
its own changes, and that it changes nothing else; before READY the host's are ignored beyond the management registers and the MSI-X
structures, and while a stream of its port is Insecure (log 122) all of them. The bound of STAGEL, the links of the free list and the
clearing reads are the model's reading (logs 26, 77, 86). R405, R426, R452, R453, R455, R459, R467, R474, R483: a register write at level
0, or by the host of an Insecure stream (log 122) or before READY beyond the management registers and the MSI-X structures, or not of a
register's size or alignment, changes nothing; at level 1 or 2 it sets the register of its offset: RTHB, ADMLIM, a queue control word, the
ASID base, the low mark, the prefix base, the fault queue, the ring ports, the window, the vectors, a disposition, a journal clear or a
reset; CLASS, THERMCFG and CTXPOOL take it at level 2 only, and IDEREQ. -/
def Obligations.ControlBlock : Prop :=
  (∀ (s : State) (v n q : Nat) (on : Bool),
    let cut := (NMap.get {} s.ide 0).state = 2 ∨ (NMap.get {} s.ide 1).state = 2
    let late : List Instr := [.admlimWrite v, .stctlPoison n q v, .stctlIrq n on, .queueSuspend q on, .queueRank q v, .fpush v, .hmbxWrite v n,
      .hintrWrite v, .rpstatArm n]
    (cut → ∀ i ∈ [Instr.bar2errRead, .fltqlostRead, .resizableBarWrite v, .msixVectorUnmask n, .mctlReset, .mctlJclr, .mctlRload n] ++ late,
      Does i s (fun t => t = s)) ∧
    (s.boot.ready = false → ∀ i ∈ late, Does i s (fun t => t = s)) ∧
    Does (.fltqptrHeadWrite v) s (fun t => t.fltHead = v / 2 ^ 32 % 2 ^ 32 ∧ (t.fltHold = [] ∨ t.fltFull = true) ∧ (∃ d, s.fltHold = d ++ t.fltHold) ∧
      t.fltSeq = s.fltSeq ∧ (s.fltHold = [] → t = { s with fltHead := v / 2 ^ 32 % 2 ^ 32 })) ∧
    (¬ cut →
    Does .bar2errRead s (fun t => if s.boot.ready then t = { s with hostOut := s.hostOut ++ [(0, [s.bar2err])], b2errN := 0, b2errVa := 0 }
      else t = { s with hostOut := s.hostOut ++ [(0, [0])] }) ∧
    Does .fltqlostRead s (fun t => if s.boot.ready then t = { s with hostOut := s.hostOut ++ [(0, [s.fltLost])], fltLost := 0 }
      else t = { s with hostOut := s.hostOut ++ [(0, [0])] }) ∧
    (∀ k, 30 ≤ k → k ≤ 38 → Does (.resizableBarWrite (2 ^ k)) s (fun t => t = { s with b2size := k })) ∧
    ((∀ k, 30 ≤ k → k ≤ 38 → v ≠ 2 ^ k) → Does (.resizableBarWrite v) s (fun t => t = s)) ∧
    Does (.msixVectorUnmask n) s (fun t => (∀ j, NMap.get false t.msixOn j = (j == n || NMap.get false s.msixOn j)) ∧
      (∀ j, NMap.get false t.msixPend j = (j != n && NMap.get false s.msixPend j)) ∧
      t.msixOut = s.msixOut ++ (if NMap.get false s.msixPend n then [n] else []) ∧
      { t with msixOn := s.msixOn, msixPend := s.msixPend, msixOut := s.msixOut } = s)) ∧
    (¬ cut → s.boot.ready = true →
    Does (.admlimWrite v) s (fun t => t = { s with
      stagel := min (v / 2 ^ 48 % 2 ^ 16) (2048 * s.storeCourses.length), resvl := v / 2 ^ 24 % 2 ^ 24,
      cap := min (v % 2 ^ 24) (95 * (32 * s.computeCourses.length) * 65536 / 100) }) ∧
    (∀ ring R, R = (if ring = 1 then (s.stream n).bits else (s.stream n).frame) →
      ((s.stream n).live = true → R.stalled = some R.pub → v % 65536 = R.pub % 65536 → Does (.stctlPoison n ring v) s (fun t =>
        (∀ k, k ≠ 4 * runtimeTeam → t.strand k = s.strand k) ∧
        (∀ m, m ≠ n → (t.stream m).frame = (s.stream m).frame ∧ (t.stream m).bits = (s.stream m).bits) ∧
        (t.stream n).frame = (if ring = 1 then (s.stream n).frame else { R.doPoison with stalled := none }) ∧
        (t.stream n).bits = (if ring = 1 then { R.doPoison with stalled := none } else (s.stream n).bits))) ∧
      (((s.stream n).live = false ∨ R.stalled ≠ some R.pub ∨ v % 65536 ≠ R.pub % 65536) → Does (.stctlPoison n ring v) s (fun t => t = s))) ∧
    (n < 512 → Does (.stctlIrq n on) s (fun t => { t with streams := s.streams } = s ∧
      t.stream n = { s.stream n with irq := on } ∧ ∀ m, m ≠ n → t.stream m = s.stream m)) ∧
    (512 ≤ n → Does (.stctlIrq n on) s (fun t => t = s)) ∧
    (q < 576 → Does (.queueSuspend q on) s (fun t => { t with qcwSusp := s.qcwSusp } = s ∧
      ∀ j, t.isSusp j = if j = q then on else s.isSusp j)) ∧
    (512 ≤ q → q < 576 → Does (.queueRank q v) s (fun t => { t with qcwRank := s.qcwRank } = s ∧
      ∀ j, t.rank j = if j = q then v % 64 else s.rank j)) ∧
    ((q < 512 ∨ 576 ≤ q) → Does (.queueRank q v) s (fun t => t = s)) ∧ (576 ≤ q → Does (.queueSuspend q on) s (fun t => t = s)) ∧
    Does (.rpstatArm n) s (fun t => { t with ports := s.ports } = s ∧ t.port n = { s.port n with aborted := false } ∧
      ∀ j, j ≠ n → t.port j = s.port j) ∧
    (v % 2048 < 516 → Does (.hintrWrite v) s (fun t => t = s)) ∧
    (516 ≤ v % 2048 → NMap.get false s.msixOn (v % 2048) = true →
      Does (.hintrWrite v) s (fun t => t = { s with msixOut := s.msixOut ++ [v % 2048] })) ∧
    (516 ≤ v % 2048 → NMap.get false s.msixOn (v % 2048) = false → Does (.hintrWrite v) s (fun t => { t with msixPend := s.msixPend } = s ∧
      ∀ j, NMap.get false t.msixPend j = (j == v % 2048 || NMap.get false s.msixPend j))) ∧
    (s.launchOf (v / 2 ^ 32 % 2 ^ 32) = none → Does (.hmbxWrite v n) s (fun t =>
      { t with mbxDrop := s.mbxDrop } = s ∧ t.mbxDrop = if s.mbxDrop + 1 < 2 ^ 64 then s.mbxDrop + 1 else s.mbxDrop)) ∧
    (∀ l, s.launchOf (v / 2 ^ 32 % 2 ^ 32) = some l → (s.launch l).hdr = none → Does (.hmbxWrite v n) s (fun t =>
      { t with mbxDrop := s.mbxDrop } = s ∧ t.mbxDrop = if s.mbxDrop + 1 < 2 ^ 64 then s.mbxDrop + 1 else s.mbxDrop)) ∧
    (∀ l h, s.launchOf (v / 2 ^ 32 % 2 ^ 32) = some l → (s.launch l).hdr = some h →
      ((h.cores ≤ v / 2 ^ 16 % 256 ∨ h.strands ≤ v / 256 % 4) → Does (.hmbxWrite v n) s (fun t =>
        { t with mbxDrop := s.mbxDrop } = s ∧ t.mbxDrop = if s.mbxDrop + 1 < 2 ^ 64 then s.mbxDrop + 1 else s.mbxDrop)) ∧
      (v / 2 ^ 16 % 256 < h.cores → v / 256 % 4 < h.strands → s.slotOf l (v / 2 ^ 16 % 256) = none →
        Does (.hmbxWrite v n) s (fun t => if v / 2 ^ 16 % 256 < (s.launch l).bound
          then { t with mbxDrop := s.mbxDrop } = s ∧ t.mbxDrop = if s.mbxDrop + 1 < 2 ^ 64 then s.mbxDrop + 1 else s.mbxDrop
          else { t with launches := s.launches } = s ∧
            t.launch l = { s.launch l with held := (s.launch l).held ++ [(v / 2 ^ 16 % 256, v / 256 % 4, v % 16, BitVec.ofNat 64 n)] }))) ∧
    (∀ l h u, s.launchOf (v / 2 ^ 32 % 2 ^ 32) = some l → (s.launch l).hdr = some h → v / 2 ^ 16 % 256 < h.cores →
      v / 256 % 4 < h.strands → s.slotOf l (v / 2 ^ 16 % 256) = some u →
      ((s.strand (4 * u + v / 256 % 4)).run.over = true → Does (.hmbxWrite v n) s (fun t =>
        { t with mbxDrop := s.mbxDrop } = s ∧ t.mbxDrop = if s.mbxDrop + 1 < 2 ^ 64 then s.mbxDrop + 1 else s.mbxDrop)) ∧
      ((s.strand (4 * u + v / 256 % 4)).run.over = false → Does (.hmbxWrite v n) s (fun t => OnlyStrands s t ∧ (∀ k, k ≠ 4 * u + v / 256 % 4 → t.strand k = s.strand k) ∧
        (t.strand (4 * u + v / 256 % 4)).arrive = (s.strand (4 * u + v / 256 % 4)).arrive ||| BitVec.ofNat 16 (2 ^ (v % 16)) ∧
        ∀ m, NMap.get 0 (t.strand (4 * u + v / 256 % 4)).mbx m =
          if m = v % 16 then BitVec.ofNat 64 n else NMap.get 0 (s.strand (4 * u + v / 256 % 4)).mbx m))) ∧
    (v / 65536 % 2 ^ 36 * 65536 < s.memtop * 2 ^ 30 → Does (.fpush v) s (fun t => t.free = s.free + 1 ∧ t.freeHead = v / 65536 % 2 ^ 36 * 65536 ∧
      t.strands = s.strands ∧ t.teams = s.teams ∧
      ∀ a, Memory.read t.mem a = if v / 65536 % 2 ^ 36 * 65536 ≤ a ∧ a < v / 65536 % 2 ^ 36 * 65536 + 65536
        then BitVec.ofNat 8 (if a < v / 65536 % 2 ^ 36 * 65536 + 8 then s.freeHead / 256 ^ (a - v / 65536 % 2 ^ 36 * 65536) else 0)
        else Memory.read s.mem a)) ∧
    (s.memtop * 2 ^ 30 ≤ v / 65536 % 2 ^ 36 * 65536 → Does (.fpush v) s (fun t => t = s)))) ∧
  (∀ (s : State) (off size v level : Nat),
    ((level = 0 ∨ level = 1 ∧ s.boot.ready = false ∧ 65536 ≤ off ∧ (off < 0x100000 ∨ 0x108100 ≤ off) ∨ off % 4 ≠ 0 ∨
        size ≠ 4 ∧ size ≠ 8 ∧ size ≠ 16) →
      Does (.registerWrite off size v level) s (fun t => t = s)) ∧
    (level = 1 → ((NMap.get {} s.ide 0).state = 2 ∨ (NMap.get {} s.ide 1).state = 2) → Does (.registerWrite off size v level) s (fun t => t = s)) ∧
    (1 ≤ level → (2 ≤ level ∨ s.boot.ready = true ∧ (NMap.get {} s.ide 0).state ≠ 2 ∧ (NMap.get {} s.ide 1).state ≠ 2) →
      (∀ n, n < 512 → v.testBit 63 = false → Does (.registerWrite (0x21000 + 8 * n) 8 v level) s (fun t => { t with streams := s.streams } = s ∧
        t.stream n = { s.stream n with irq := v.testBit 16 } ∧ ∀ m, m ≠ n → t.stream m = s.stream m)) ∧
      (∀ d i, (d, i) ∈ [(0, Instr.fdispResume (v % 2 ^ 16) (v / 2 ^ 16 % 4)), (1, .fdispSkiprep (v % 2 ^ 16) (v / 2 ^ 16 % 4)),
          (2, .fdispSkip (v % 2 ^ 16) (v / 2 ^ 16 % 4)), (3, .fdispTerm (v % 2 ^ 16) (v / 2 ^ 16 % 4)),
          (4, .fdispKill (v % 2 ^ 16) (v / 2 ^ 16 % 4))] → v / 2 ^ 20 % 16 = d →
        Does (.registerWrite 0x31018 8 v level) s (fun t => Does i s (fun u => u = t))) ∧
      (5 ≤ v / 2 ^ 20 % 16 → Does (.registerWrite 0x31018 8 v level) s (fun t => t = s)) ∧
      Does (.registerWrite 0x180 8 v level) s (fun t => t = { s with rthb := BitVec.ofNat 64 v }) ∧
      Does (.registerWrite 0x20000 8 v level) s (fun t => t = { s with
        stagel := min (v / 2 ^ 48 % 2 ^ 16) (2048 * s.storeCourses.length), resvl := v / 2 ^ 24 % 2 ^ 24,
        cap := min (v % 2 ^ 24) (95 * (32 * s.computeCourses.length) * 65536 / 100) }) ∧
      (∀ q, q < 576 → Does (.registerWrite (0x22000 + 4 * q) 4 v level) s (fun t =>
        { t with qcwSusp := s.qcwSusp, qcwRank := s.qcwRank } = s ∧ (∀ j, t.isSusp j = if j = q then v.testBit 8 else s.isSusp j) ∧
        ∀ j, t.rank j = if j = q ∧ 512 ≤ q then v % 64 else s.rank j)) ∧
      Does (.registerWrite 0x30000 8 v level) s (fun t => t = { s with asidBase := v / 2 ^ 19 % 2 ^ 33 * 2 ^ 19 }) ∧
      Does (.registerWrite 0x30008 8 v level) s (fun t => t = { s with lowmark := v % 2 ^ 32 }) ∧
      Does (.registerWrite 0x30018 8 v level) s (fun t => t = { s with pfxBase := v / 2 ^ 26 % 2 ^ 26 * 2 ^ 26 }) ∧
      Does (.registerWrite 0x31000 8 v level) s (fun t => t = { s with fltBase := v / 2 ^ 16 % 2 ^ 36 * 2 ^ 16, fltLog2n := v % 16 }) ∧
      Does (.registerWrite 0x50010 8 v level) s (fun t =>
        t = { s with b2asid := v / 2 ^ 48 % 2 ^ 16, b2vb := v / 2 ^ 22 % 2 ^ 26, b2en := v.testBit 0 }) ∧
      (∀ p, p < 3 → Does (.registerWrite (0x40000 + 4096 * p) 8 v level) s (fun t => { t with ports := s.ports } = s ∧
        (∀ j, j ≠ p → t.port j = s.port j) ∧
        t.port p = { s.port p with next := v / 2 ^ 26 % 2 ^ 38, mm1 := v / 2 ^ 16 % 8, pos := v / 256 % 8, en := v.testBit 0 })) ∧
      (∀ p, p < 3 → Does (.registerWrite (0x40008 + 4096 * p) 8 v level) s (fun t => { t with ports := s.ports } = s ∧
        (∀ j, j ≠ p → t.port j = s.port j) ∧
        t.port p = { s.port p with
          prevrid := v / 2 ^ 48 % 2 ^ 16, revto := v / 2 ^ 36 % 2 ^ 12, idereq := if 2 ≤ level then v.testBit 3 else (s.port p).idereq,
          aborted := if v.testBit 1 then false else (s.port p).aborted })) ∧
      Does (.registerWrite 0x10000 8 v level) s (fun t => t = if 2 ≤ level then { s with cls := v % 4 } else s) ∧
      Does (.registerWrite 0x10100 8 v level) s (fun t => t = if 2 ≤ level then
        { s with hotth := v / 2 ^ 48 % 256, hyst := v / 2 ^ 40 % 256, marginC := v / 2 ^ 32 % 256, dwell := v / 2 ^ 16 % 65536,
                 pmin := v / 256 % 256 } else s) ∧
      (level = 1 → Does (.registerWrite 0x32000 8 v level) s (fun t => t = s)) ∧
      (2 ≤ level → Does (.registerWrite 0x32000 8 v level) s (fun t => t.ctxBase = v / 2 ^ 16 % 2 ^ 36 * 2 ^ 16 ∧ t.ctxN = v % 2 ^ 16 ∧
        t.teams = s.teams ∧ ∀ k, k ≠ 4 * runtimeTeam → t.strand k = s.strand k))) ∧
    (1 ≤ level → (2 ≤ level ∨ (NMap.get {} s.ide 0).state ≠ 2 ∧ (NMap.get {} s.ide 1).state ≠ 2) →
      (v % 8 = 2 → Does (.registerWrite 8 8 v level) s (fun t => t = { s with flash := { s.flash with jclr := true } })) ∧
      (v % 4 = 1 → Does (.registerWrite 8 8 v level) s (fun t => t.boot.rstcause = 2 ∧ t.boot.bootn = s.flash.bootn + 1 ∧ t.boot.step = 1 ∧
        t.mem = [] ∧ t.strands = [] ∧ t.teams = [])) ∧
      ∀ n, n < 2048 →
        Does (.registerWrite (0x100000 + 16 * n + 8) 4 v level) s (fun t => { t with msixData := s.msixData } = s ∧
          ∀ j, NMap.get 0 t.msixData j = if j = n then v % 2 ^ 32 else NMap.get 0 s.msixData j) ∧
        Does (.registerWrite (0x100000 + 16 * n) 8 v level) s (fun t => { t with msixAddr := s.msixAddr } = s ∧
          ∀ j, NMap.get 0 t.msixAddr j = if j = n then BitVec.ofNat 64 v else NMap.get 0 s.msixAddr j) ∧
        Does (.registerWrite (0x100000 + 16 * n + 12) 4 v level) s (fun t => ∀ j,
          NMap.get false t.msixOn j = if j = n then !v.testBit 0 else NMap.get false s.msixOn j)))

/-- R405 to R407, R34, R481: RESUME, SKIPREP and SKIP resume a parked strand of a bound team at the bundle, at its next repetition, or at
the next bundle; TERM ends it; KILL ends every strand of its launch; a disposition of a strand of a saved team is kept for its resume; it
acts on a strand parked by a runtime fault, the keystone's on one parked by a keystone event, and on no other. An ECC error and a course
failure are keystone events, each with a copy in the fault queue; the failure of a compute course kills its launches, with error 0x12 in
the JCB also of one killed before, fences the course and begins a role change without its test; that of another ends the module's service,
and what its slices held is lost. Which strand the record of a course failure names is the model's choice (log 96). That SKIP and SKIPREP
make no end test of a loop is the model's reading (log 36). -/
def Obligations.Dispositions : Prop :=
  (∀ (s : State) (token str k : Nat) (f : ParkedFault) (key : Bool), k = 4 * token + str → 2 ≤ token → str < 4 → (s.strand k).run = .parked →
    (s.strand k).parked = some f → (key = true ↔ 0x80 ≤ f.code) → (∀ p ∈ (s.strand k).pend, p.failed = false) →
    (∀ i disp rep, ((i = .fdispResume token str ∧ key = false ∨ i = .keystoneDisposition 0 token str ∧ key = true) ∧ disp = 0 ∧ rep = f.trep) ∨
        ((i = .fdispSkiprep token str ∧ key = false ∨ i = .keystoneDisposition 1 token str ∧ key = true) ∧ disp = 1 ∧ rep = f.trep + 1) ∨
        ((i = .fdispSkip token str ∧ key = false ∨ i = .keystoneDisposition 2 token str ∧ key = true) ∧ disp = 2 ∧ rep = 16) →
      ((s.team token).status = .bound → Does i s (fun t => OnlyStrands s t ∧ (∀ j, j ≠ k → t.strand j = s.strand j) ∧
        t.strand k = { s.strand k with run := .ready, parked := none, pc := f.tepc, rep := rep, grpPos := 0, grpChecked := false }))) ∧
    (∀ i disp, ((i = .fdispResume token str ∧ key = false ∨ i = .keystoneDisposition 0 token str ∧ key = true) ∧ disp = 0) ∨
        ((i = .fdispSkiprep token str ∧ key = false ∨ i = .keystoneDisposition 1 token str ∧ key = true) ∧ disp = 1) ∨
        ((i = .fdispSkip token str ∧ key = false ∨ i = .keystoneDisposition 2 token str ∧ key = true) ∧ disp = 2) ∨
        ((i = .fdispTerm token str ∧ key = false ∨ i = .keystoneDisposition 3 token str ∧ key = true) ∧ disp = 3) ∨
        ((i = .fdispKill token str ∧ key = false ∨ i = .keystoneDisposition 4 token str ∧ key = true) ∧ disp = 4) →
      (s.team token).status = .saved → Does i s (fun t => OnlyStrands s t ∧ (∀ j, j ≠ k → t.strand j = s.strand j) ∧
        t.strand k = { s.strand k with parked := some { f with disp := some disp } })) ∧
    (∀ i, (i = .fdispTerm token str ∧ key = false ∨ i = .keystoneDisposition 3 token str ∧ key = true) → (s.team token).status = .bound →
      Does i s (fun t => t.mem = s.mem ∧ (t.strand k).run = .terminated ∧ (t.strand k).parked = none)) ∧
    (∀ i, (i = .fdispKill token str ∧ key = false ∨ i = .keystoneDisposition 4 token str ∧ key = true) → (s.team token).status = .bound →
      (s.launch (s.team token).launch).killed = false →
      Does i s (fun t => (t.launch (s.team token).launch).killed = true ∧
        ∀ u ∈ (s.launch (s.team token).launch).slots, u < 65536 → ∀ j ∈ s.members u, j / 4 = u → (t.strand j).run = .terminated))) ∧
  (∀ (s : State) (token str : Nat),
    (∀ i ∈ [Instr.fdispResume token str, .fdispSkiprep token str, .fdispSkip token str, .fdispTerm token str, .fdispKill token str],
      ((s.strand (4 * token + str)).run ≠ .parked ∨ (s.strand (4 * token + str)).parked = none ∨
        ∃ f, (s.strand (4 * token + str)).parked = some f ∧ 0x80 ≤ f.code) → Does i s (fun t => t = s)) ∧
    ∀ disp, (4 < disp ∨ 2 ≤ token ∧ ((s.strand (4 * token + str)).run ≠ .parked ∨ (s.strand (4 * token + str)).parked = none ∨
        ∃ f, (s.strand (4 * token + str)).parked = some f ∧ f.code < 0x80)) →
      Does (.keystoneDisposition disp token str) s (fun t => t = s)) ∧
  (∀ (s : State) (a : Nat), Does (.firmwareEccError a) s (fun t => ∃ r, t.ksQueue = s.ksQueue ++ [r] ∧ r.code = 0x81 ∧ r.tinfo = a ∧ r.kind = 1 ∧
    Copied s t r ∧ (NMap.get (0, 0) t.ecc 5).2 = min ((NMap.get (0, 0) s.ecc 5).2 + 1) 65535)) ∧
  ∀ (On : Nat → Nat × Team → Prop), (∀ c u, On c u ↔ u.1 < 65536 ∧ (u.2.status = .bound ∨ u.2.status = .loading) ∧ courseOf u.2.core = c) →
  ∀ (s : State) (c : Nat), c < 6 → Does (.courseFailure c) s (fun t => t.boot.cfence = s.boot.cfence ||| 2 ^ c ∧ t.boot.degraded = true ∧
    t.flash.cfence = s.flash.cfence ||| 2 ^ c ∧ (t.course c).grant = 0 ∧ (∀ k, k < 8 → (t.cluster (8 * c + k)).stop = true) ∧
    (∃ r, t.ksQueue = s.ksQueue ++ [r] ∧ r.code = 0x82 ∧ r.tinfo = c ∧ r.kind = 1 ∧
      (s.isCompute c = true → (∀ u ∈ s.teams, ¬ On c u) → Copied s t r) ∧
      ∀ l, s.isCompute c = true → (s.launch l).killed = true → (∃ u ∈ s.teams, On c u ∧ u.2.launch = l) →
        (∀ u ∈ s.teams, On c u → u.2.launch = l) →
        t.mem = (({ s with ksQueue := s.ksQueue ++ [r] } : State).post r |>.jcbError l 0x12 0 0).mem) ∧
    (∀ u ∈ s.teams, On c u → (t.launch u.2.launch).killed = true) ∧
    (s.isCompute c = true → t.rcState = 2 ∧ t.rcSkipTest = true ∧ t.pendMap = s.roleMap - 2 ^ c ∧ t.boot.ready = s.boot.ready) ∧
    (s.isCompute c = false → t.boot.ready = false ∧ t.boot.fatal = true ∧ ∀ b ∈ t.cache, s.storeCourses[b.slice / 32]? ≠ some c))

/-- R32, R34, R35, R119 to R136, R144: a bundle whose words are fetched and ready issues: its slots stand in the issue record, with the
dependence of its group if there is one, and its first illegal opcode, in the order of its slots, or the overlap of the predicates that
its slots write with a re-issue, for the trap; its registers and memory are as they were; words that are no legal bundle take the
illegal-encoding trap. That a re-issue counts with the word index of the header is the model's choice (log 115). A resume point beyond the
repetitions of its bundle goes on with the bundle that follows, with no end test of a loop (the model's reading, log 36). R34, R35, R134,
R138: where a slot of an issued bundle traps, or is illegal, or the group it begins has a dependence, none of its slots has an effect:
memory, teams and queues are as they were, and the trap is the first in the order of R35, the dependence in its place with the address of
the second bundle. The order among traps that R35 does not rank is the model's choice (log 79). -/
def Obligations.BundlesIssue : Prop :=
  ((∀ (s s' : State) (u core : Nat) (ws : List Nat), core = s.coreOf (teamOf s.cur) → Fetches s u ws s' →
    (∀ b t slots dep, ((decodeBundle ws = .ok b ∧ illegalIn (isSupervisor (teamOf s'.cur)) ws = none) ∨
        ((∀ n, decodeBundle ws ≠ .error (.illegalEncoding n)) ∧ illegalIn (isSupervisor (teamOf s'.cur)) ws ≠ none ∧
          b = legalPart (isSupervisor (teamOf s'.cur)) ws)) →
      MayIssue s' t core u b slots dep → Does .bundleRepetition s (fun r =>
      (overlaps [] (slots.map (fun x => (x.word, x.instr))) = [] →
        (illegalIn (isSupervisor (teamOf s'.cur)) ws = none → r.iss.found = none) ∧
        ∀ k op, illegalIn (isSupervisor (teamOf s'.cur)) ws = some (k, op) →
          r.iss.found = some { prio := 20, code := 0x02, tinfo := BitVec.ofNat 64 (256 * k + op) }) ∧
      (∀ n ∈ overlaps [] (slots.map (fun x => (x.word, x.instr))), ∃ m ≤ n, m ∈ overlaps [] (slots.map (fun x => (x.word, x.instr))) ∧
        r.iss.found = some { prio := 10, code := 0x01, tinfo := BitVec.ofNat 64 m }) ∧
      r.iss.slots = slots ∧ r.iss.depend = dep ∧ r.iss.trap = none ∧ r.iss.blocked = false ∧ r.iss.rept = b.head.rep ∧ r.iss.start = s'.st.pc ∧
      r.mem = s'.mem ∧ r.teams = s'.teams ∧ r.cycle = max s'.cycle u ∧ r.cur = s'.cur ∧
      { r.st with issues := s'.st.issues, ready := s'.st.ready, masked := s'.st.masked, grpPos := s'.st.grpPos, grpStart := s'.st.grpStart,
                  grpChecked := s'.st.grpChecked } = s'.st)) ∧
    (∀ n, decodeBundle ws = .error (.illegalEncoding n) →
      Does .bundleRepetition s (fun r => r.iss.trap = some { prio := 10, code := 0x01, tinfo := BitVec.ofNat 64 n }))) ∧
  ∀ (s s' : State) (u w : Nat) (rs : List Renewal), FetchesHead s u rs w s' →
    ((getHeader w).kind ≠ 0 →
      Does .bundleRepetition s (fun r => r.iss.trap = some { prio := 10, code := 0x01, tinfo := 0 })) ∧
    ((getHeader w).kind = 0 → (getHeader w).rep < s'.st.rep → Does .bundleRepetition s (fun r =>
      r.st.pc = s'.st.pc + BitVec.ofNat 56 (4 * (1 + (getHeader w).body)) ∧ r.st.rep = 0 ∧ r.iss.slots = [] ∧ r.iss.trap = none ∧
      r.mem = s'.mem ∧ r.teams = s'.teams ∧ r.st.a = s'.st.a ∧ r.st.v = s'.st.v))) ∧
  (∀ (s : State) (ends : List SlotEnd) (r : TrapRec), s.iss.trap = none → s.iss.blocked = false →
    (2 ≤ s.iss.slots.length ∨ s.iss.depend ≠ none ∨ s.iss.found ≠ none) → trialSlots Sys2Proof.Machine.exec s s.iss.slots = .ok ends →
    bundleTrap s.iss.found s.iss.depend ends = some r →
    ((∃ q, s.iss.found = some q ∧ q.prio = r.prio ∧ q.code = r.code ∧ (q.code ≠ 8 → q = r)) ∨ (∃ e ∈ ends, ∃ q, e.trap = some q ∧ q.prio = r.prio ∧ q.code = r.code) ∨
      ∃ a, s.iss.depend = some a ∧ r = { prio := 30, code := 0x03, tinfo := BitVec.ofNat 64 a }) ∧
    (∀ e ∈ ends, ∀ q, e.trap = some q → r.prio ≤ q.prio) ∧ (∀ a, s.iss.depend = some a → r.prio ≤ 30) ∧ (∀ q, s.iss.found = some q → r.prio ≤ q.prio) ∧
    ∃ t, runSlots Sys2Proof.Machine.exec s = .next t ∧ t.teams = s.teams ∧ t.queues = s.queues ∧ t.launches = s.launches ∧
      t.iss.trap = some r ∧ (s.tm.handler ≠ 0 → s.st.tmode = false → r.code < 0x40 → t.mem = s.mem ∧
        t.st.a = s.st.a ∧ t.st.b = s.st.b ∧ t.st.v = s.st.v ∧ t.st.ps = s.st.ps ∧ t.st.stores = s.st.stores ∧ t.st.pc = s.tm.handler))

/-- A step is the issue of a strand's bundle or an event. Where the words at the program counter decode to a bundle of one slot that may
issue, with no dependence in its group and no overlap, and no transom write on its way to a register it writes, the step performs that
slot's instruction on the machine as it then is, and retires the bundle; an instruction that traps or blocks does not retire it. At the
end of a control period the sensors' samples are taken (R425); a machine without power takes no step. The order of turns, and which events
come by themselves, are the model's choice (logs 1, 20, 88). -/
def Obligations.StepRunsDecoded : Prop :=
  (∀ (s s0 s' t : State) (k u slot w : Nat) (i : Instr) (rest : List Turn) (ws : List Nat) (b : Bundle) (slots : List IssueSlot),
    s.agenda = .issue k :: rest → s0 = ({ s with agenda := rest } : State).switchCore (s.coreOf (teamOf k)) → s0.canIssue k = true →
    (s0.core (s0.coreOf (teamOf k))).slot = some k → Fetches { s0 with cur := k } u ws s' →
    decodeBundle ws = .ok b → illegalIn (isSupervisor (teamOf s'.cur)) ws = none → b.slots = [(slot, w, i)] → MayIssue s' t (s0.coreOf (teamOf k)) u b slots none →
    slots = [{ slot := slot, word := w, instr := i }] →
    ∃ r, Sys2Proof.Machine.exec .bundleRepetition { s0 with cur := k } = .next r ∧ r.iss.slots = slots ∧
      (r.overtaken = [] → r.iss.found = none → ∀ q, Sys2Proof.Machine.exec i (r.atSlot { slot := slot, word := w, instr := i }) = .next q →
        (q.iss.trap ≠ none → Sys2Proof.Machine.step s = .next q) ∧
        (q.iss.trap = none → q.iss.blocked = true → Sys2Proof.Machine.step s = .next (q.unissue r (q.strand r.cur).run)) ∧
        (q.iss.trap = none → q.iss.blocked = false → Sys2Proof.Machine.step s = .next (q.finishBundle r)))) ∧
  (∀ (s : State) (i : Instr) (rest : List Turn), s.agenda = .event i :: rest → i ≠ .bundleRepetition → slotOf i = none →
    Sys2Proof.Machine.step s = Sys2Proof.Machine.exec i { s with agenda := rest }) ∧
  (∀ (s w : State), s.agenda = [] → s.boot.powered = true → w = s.wake.startUnits.switchCores →
    (∀ i, w.nextTurn = .event i → i ≠ .bundleRepetition → slotOf i = none → Sys2Proof.Machine.step s = Sys2Proof.Machine.exec i w) ∧
    (∀ k, w.nextTurn = .issue k → Sys2Proof.Machine.step s = Sys2Proof.Machine.step { w with agenda := [.issue k] }) ∧
    (w.nextTurn = .period → Sys2Proof.Machine.step s =
      Sys2Proof.Machine.exec (.controlPeriodEnd ((List.range 48).map (Config.sensor w.period)) (Config.power w.period)) w)) ∧
  ∀ (s : State), s.agenda = [] → s.boot.powered = false → Sys2Proof.Machine.step s = .fault .noPower

/-- R128: an instruction of the C, A, M or D slot whose guard is 0 does nothing; nor does a load, store, dot product, conversion,
reduction or transom copy of a bay with no active lane. -/
def Obligations.GuardZero : Prop :=
  (∀ (i : Instr) (g : Nat) (s : State), slotGuard i = some g → s.pS g = false → Sys2Proof.Machine.exec i s = .next s) ∧
  ∀ (o : OpV) (s : State), s.anyActive o.g o.bay = false →
    ∀ i ∈ [Instr.vld o, .vst o, .vdot4 o, .vdot4s o, .vnrw o, .vwdn o, .vred o, .vscan o, .xmovvBay o, .xmovvAll o,
      .xmovvA o, .xmovvA2 o], Sys2Proof.Machine.exec i s = .next s

/-- The decoder reads back every well-formed slot instruction from the words that the encoder writes for it. -/
def Obligations.EncodeDecode : Prop :=
  ∀ (i : Instr) (k : Nat), wf i = true → slotOf i = some k → decodeSlot k (encode i) = .ok i

/-- What the decoder accepts is well formed and stands in the slot it was read from. -/
def Obligations.DecodedIsWellFormed : Prop :=
  ∀ (k : Nat) (ws : List Nat) (i : Instr), k < 12 → (∀ w ∈ ws, w < 2 ^ 32) → decodeSlot k ws = .ok i → wf i = true ∧ slotOf i = some k

/-- R25, R474, R475, R477: after a plinth reset the cycle counter is 0, no team runs, nothing is queued, mapped or cached, and start-up is
at step 1, whose record with OUTCOME 4 stands in the journal. That the first start has number 1 and its record slot 0 is the model's
choice (log 14). -/
def Obligations.ResetState : Prop :=
  State.reset.cycle = 0 ∧ State.reset.strands = [] ∧ State.reset.teams = [] ∧ State.reset.launches = [] ∧ State.reset.streams = [] ∧
  State.reset.tlb = [] ∧ State.reset.cache = [] ∧ State.reset.log = [] ∧ State.reset.epoch = 0 ∧ State.reset.boot.step = 1 ∧
  State.reset.boot.ready = false ∧ NMap.get {} State.reset.flash.journal 0 = { bootn := 1, step := 1, outcome := 4 } ∧ State.reset.flash.jnext = 1 ∧
  MemInv State.reset ∧
  (∀ a, Memory.read State.reset.mem a = 0) ∧ ∀ q, (State.reset.queue q).entries = []

/-- Every step keeps device memory in its canonical form. -/
def Obligations.MemInvStep : Prop :=
  ∀ (s t : State), MemInv s → Sys2Proof.Machine.step s = .next t → MemInv t
end

