-- ==== Sys2Proof/Laws/Dispatch.lean ====
section
/-! SUPPORT. The dispatch, constructor by constructor: exec of an instruction is its meaning. A proof rewrites with these and never
unfolds the match over all instructions. -/

namespace Sys2Proof

open Sys2Proof.Machine

@[simp] theorem exec_bundleRepetition (s : State) : exec .bundleRepetition s = execBundleRepetition s := rfl
@[simp] theorem exec_globalAccessComplete (strand : Nat) (ok : Bool) (value : Nat) (s : State) : exec (.globalAccessComplete strand ok value) s = execGlobalAccessComplete strand ok value s := rfl
@[simp] theorem exec_pbr (o : OpB) (s : State) : exec (.pbr o) s = execPbr o s := rfl
@[simp] theorem exec_pbrx (o : OpG) (s : State) : exec (.pbrx o) s = execPbrx o s := rfl
@[simp] theorem exec_br (o : OpG) (s : State) : exec (.br o) s = execBr o s := rfl
@[simp] theorem exec_brl (o : OpG) (s : State) : exec (.brl o) s = execBrl o s := rfl
@[simp] theorem exec_loop (o : OpLp) (s : State) : exec (.loop o) s = execLoop o s := rfl
@[simp] theorem exec_loopi (o : OpLp) (s : State) : exec (.loopi o) s = execLoopi o s := rfl
@[simp] theorem exec_loopm (o : OpLp) (s : State) : exec (.loopm o) s = execLoopm o s := rfl
@[simp] theorem exec_lexit (o : OpN) (s : State) : exec (.lexit o) s = execLexit o s := rfl
@[simp] theorem exec_sleep (o : OpG) (s : State) : exec (.sleep o) s = execSleep o s := rfl
@[simp] theorem exec_sleepWake (strand : Nat) (s : State) : exec (.sleepWake strand) s = execSleepWake strand s := rfl
@[simp] theorem exec_waitp (o : OpN) (s : State) : exec (.waitp o) s = execWaitp o s := rfl
@[simp] theorem exec_bar (o : OpN) (s : State) : exec (.bar o) s = execBar o s := rfl
@[simp] theorem exec_phase (o : OpN) (s : State) : exec (.phase o) s = execPhase o s := rfl
@[simp] theorem exec_trap (o : OpN) (s : State) : exec (.trap o) s = execTrap o s := rfl
@[simp] theorem exec_tret (o : OpN) (s : State) : exec (.tret o) s = execTret o s := rfl
@[simp] theorem exec_sret (o : OpN) (s : State) : exec (.sret o) s = execSret o s := rfl
@[simp] theorem exec_exit (o : OpN) (s : State) : exec (.exit o) s = execExit o s := rfl
@[simp] theorem exec_yield (o : OpN) (s : State) : exec (.yield o) s = execYield o s := rfl
@[simp] theorem exec_pand (o : OpQ) (s : State) : exec (.pand o) s = execPand o s := rfl
@[simp] theorem exec_por (o : OpQ) (s : State) : exec (.por o) s = execPor o s := rfl
@[simp] theorem exec_pxor (o : OpQ) (s : State) : exec (.pxor o) s = execPxor o s := rfl
@[simp] theorem exec_pandn (o : OpQ) (s : State) : exec (.pandn o) s = execPandn o s := rfl
@[simp] theorem exec_pany (o : OpQ) (s : State) : exec (.pany o) s = execPany o s := rfl
@[simp] theorem exec_pall (o : OpQ) (s : State) : exec (.pall o) s = execPall o s := rfl
@[simp] theorem exec_pmov (o : OpQ) (s : State) : exec (.pmov o) s = execPmov o s := rfl
@[simp] theorem exec_add (o : OpG) (s : State) : exec (.add o) s = execAdd o s := rfl
@[simp] theorem exec_sub (o : OpG) (s : State) : exec (.sub o) s = execSub o s := rfl
@[simp] theorem exec_mul (o : OpG) (s : State) : exec (.mul o) s = execMul o s := rfl
@[simp] theorem exec_mulh (o : OpG) (s : State) : exec (.mulh o) s = execMulh o s := rfl
@[simp] theorem exec_mulhu (o : OpG) (s : State) : exec (.mulhu o) s = execMulhu o s := rfl
@[simp] theorem exec_div (o : OpG) (s : State) : exec (.div o) s = execDiv o s := rfl
@[simp] theorem exec_divu (o : OpG) (s : State) : exec (.divu o) s = execDivu o s := rfl
@[simp] theorem exec_rem (o : OpG) (s : State) : exec (.rem o) s = execRem o s := rfl
@[simp] theorem exec_remu (o : OpG) (s : State) : exec (.remu o) s = execRemu o s := rfl
@[simp] theorem exec_min (o : OpG) (s : State) : exec (.min o) s = execMin o s := rfl
@[simp] theorem exec_max (o : OpG) (s : State) : exec (.max o) s = execMax o s := rfl
@[simp] theorem exec_minu (o : OpG) (s : State) : exec (.minu o) s = execMinu o s := rfl
@[simp] theorem exec_maxu (o : OpG) (s : State) : exec (.maxu o) s = execMaxu o s := rfl
@[simp] theorem exec_abs (o : OpG) (s : State) : exec (.abs o) s = execAbs o s := rfl
@[simp] theorem exec_and (o : OpG) (s : State) : exec (.and o) s = execAnd o s := rfl
@[simp] theorem exec_or (o : OpG) (s : State) : exec (.or o) s = execOr o s := rfl
@[simp] theorem exec_xor (o : OpG) (s : State) : exec (.xor o) s = execXor o s := rfl
@[simp] theorem exec_andn (o : OpG) (s : State) : exec (.andn o) s = execAndn o s := rfl
@[simp] theorem exec_orn (o : OpG) (s : State) : exec (.orn o) s = execOrn o s := rfl
@[simp] theorem exec_shl (o : OpG) (s : State) : exec (.shl o) s = execShl o s := rfl
@[simp] theorem exec_shr (o : OpG) (s : State) : exec (.shr o) s = execShr o s := rfl
@[simp] theorem exec_sar (o : OpG) (s : State) : exec (.sar o) s = execSar o s := rfl
@[simp] theorem exec_rotl (o : OpG) (s : State) : exec (.rotl o) s = execRotl o s := rfl
@[simp] theorem exec_shli (o : OpG) (s : State) : exec (.shli o) s = execShli o s := rfl
@[simp] theorem exec_shri (o : OpG) (s : State) : exec (.shri o) s = execShri o s := rfl
@[simp] theorem exec_sari (o : OpG) (s : State) : exec (.sari o) s = execSari o s := rfl
@[simp] theorem exec_clz (o : OpG) (s : State) : exec (.clz o) s = execClz o s := rfl
@[simp] theorem exec_ctz (o : OpG) (s : State) : exec (.ctz o) s = execCtz o s := rfl
@[simp] theorem exec_popc (o : OpG) (s : State) : exec (.popc o) s = execPopc o s := rfl
@[simp] theorem exec_brev (o : OpG) (s : State) : exec (.brev o) s = execBrev o s := rfl
@[simp] theorem exec_bfx (o : OpG) (s : State) : exec (.bfx o) s = execBfx o s := rfl
@[simp] theorem exec_bfxu (o : OpG) (s : State) : exec (.bfxu o) s = execBfxu o s := rfl
@[simp] theorem exec_bfi (o : OpG) (s : State) : exec (.bfi o) s = execBfi o s := rfl
@[simp] theorem exec_fshl (o : OpG) (s : State) : exec (.fshl o) s = execFshl o s := rfl
@[simp] theorem exec_fshr (o : OpG) (s : State) : exec (.fshr o) s = execFshr o s := rfl
@[simp] theorem exec_movi (o : OpI) (s : State) : exec (.movi o) s = execMovi o s := rfl
@[simp] theorem exec_movl (o : OpL) (s : State) : exec (.movl o) s = execMovl o s := rfl
@[simp] theorem exec_addi (o : OpL) (s : State) : exec (.addi o) s = execAddi o s := rfl
@[simp] theorem exec_cmp (o : OpL) (s : State) : exec (.cmp o) s = execCmp o s := rfl
@[simp] theorem exec_cmpi (o : OpL) (s : State) : exec (.cmpi o) s = execCmpi o s := rfl
@[simp] theorem exec_sel (o : OpL) (s : State) : exec (.sel o) s = execSel o s := rfl
@[simp] theorem exec_fcmp (o : OpL) (s : State) : exec (.fcmp o) s = execFcmp o s := rfl
@[simp] theorem exec_ld (o : OpL) (s : State) : exec (.ld o) s = execLd o s := rfl
@[simp] theorem exec_st (o : OpL) (s : State) : exec (.st o) s = execSt o s := rfl
@[simp] theorem exec_ldx (o : OpL) (s : State) : exec (.ldx o) s = execLdx o s := rfl
@[simp] theorem exec_stx (o : OpL) (s : State) : exec (.stx o) s = execStx o s := rfl
@[simp] theorem exec_atom (o : OpL) (s : State) : exec (.atom o) s = execAtom o s := rfl
@[simp] theorem exec_cas (o : OpL) (s : State) : exec (.cas o) s = execCas o s := rfl
@[simp] theorem exec_csrr (o : OpG) (s : State) : exec (.csrr o) s = execCsrr o s := rfl
@[simp] theorem exec_csrw (o : OpG) (s : State) : exec (.csrw o) s = execCsrw o s := rfl
@[simp] theorem exec_mbxr (o : OpG) (s : State) : exec (.mbxr o) s = execMbxr o s := rfl
@[simp] theorem exec_mbxw (o : OpG) (s : State) : exec (.mbxw o) s = execMbxw o s := rfl
@[simp] theorem exec_cyc (o : OpG) (s : State) : exec (.cyc o) s = execCyc o s := rfl
@[simp] theorem exec_xmovaB (o : OpG) (s : State) : exec (.xmovaB o) s = execXmovaB o s := rfl
@[simp] theorem exec_xmovaV (o : OpG) (s : State) : exec (.xmovaV o) s = execXmovaV o s := rfl
@[simp] theorem exec_xmovaPair (o : OpG) (s : State) : exec (.xmovaPair o) s = execXmovaPair o s := rfl
@[simp] theorem exec_wget (o : OpG) (s : State) : exec (.wget o) s = execWget o s := rfl
@[simp] theorem exec_wrange (o : OpG) (s : State) : exec (.wrange o) s = execWrange o s := rfl
@[simp] theorem exec_fadd (o : OpG) (s : State) : exec (.fadd o) s = execFadd o s := rfl
@[simp] theorem exec_fsub (o : OpG) (s : State) : exec (.fsub o) s = execFsub o s := rfl
@[simp] theorem exec_fmul (o : OpG) (s : State) : exec (.fmul o) s = execFmul o s := rfl
@[simp] theorem exec_ffma (o : OpG) (s : State) : exec (.ffma o) s = execFfma o s := rfl
@[simp] theorem exec_fcvt (o : OpG) (s : State) : exec (.fcvt o) s = execFcvt o s := rfl
@[simp] theorem exec_vadd (o : OpV) (s : State) : exec (.vadd o) s = execVadd o s := rfl
@[simp] theorem exec_vsub (o : OpV) (s : State) : exec (.vsub o) s = execVsub o s := rfl
@[simp] theorem exec_vmul (o : OpV) (s : State) : exec (.vmul o) s = execVmul o s := rfl
@[simp] theorem exec_vmulh (o : OpV) (s : State) : exec (.vmulh o) s = execVmulh o s := rfl
@[simp] theorem exec_vmulhu (o : OpV) (s : State) : exec (.vmulhu o) s = execVmulhu o s := rfl
@[simp] theorem exec_vmad (o : OpV) (s : State) : exec (.vmad o) s = execVmad o s := rfl
@[simp] theorem exec_vmin (o : OpV) (s : State) : exec (.vmin o) s = execVmin o s := rfl
@[simp] theorem exec_vmax (o : OpV) (s : State) : exec (.vmax o) s = execVmax o s := rfl
@[simp] theorem exec_vminu (o : OpV) (s : State) : exec (.vminu o) s = execVminu o s := rfl
@[simp] theorem exec_vmaxu (o : OpV) (s : State) : exec (.vmaxu o) s = execVmaxu o s := rfl
@[simp] theorem exec_vabs (o : OpV) (s : State) : exec (.vabs o) s = execVabs o s := rfl
@[simp] theorem exec_vand (o : OpV) (s : State) : exec (.vand o) s = execVand o s := rfl
@[simp] theorem exec_vor (o : OpV) (s : State) : exec (.vor o) s = execVor o s := rfl
@[simp] theorem exec_vxor (o : OpV) (s : State) : exec (.vxor o) s = execVxor o s := rfl
@[simp] theorem exec_vandn (o : OpV) (s : State) : exec (.vandn o) s = execVandn o s := rfl
@[simp] theorem exec_vshl (o : OpV) (s : State) : exec (.vshl o) s = execVshl o s := rfl
@[simp] theorem exec_vshr (o : OpV) (s : State) : exec (.vshr o) s = execVshr o s := rfl
@[simp] theorem exec_vsar (o : OpV) (s : State) : exec (.vsar o) s = execVsar o s := rfl
@[simp] theorem exec_vbfx (o : OpV) (s : State) : exec (.vbfx o) s = execVbfx o s := rfl
@[simp] theorem exec_vbfxu (o : OpV) (s : State) : exec (.vbfxu o) s = execVbfxu o s := rfl
@[simp] theorem exec_vbfi (o : OpV) (s : State) : exec (.vbfi o) s = execVbfi o s := rfl
@[simp] theorem exec_vfshl (o : OpV) (s : State) : exec (.vfshl o) s = execVfshl o s := rfl
@[simp] theorem exec_vfshr (o : OpV) (s : State) : exec (.vfshr o) s = execVfshr o s := rfl
@[simp] theorem exec_vclz (o : OpV) (s : State) : exec (.vclz o) s = execVclz o s := rfl
@[simp] theorem exec_vpopc (o : OpV) (s : State) : exec (.vpopc o) s = execVpopc o s := rfl
@[simp] theorem exec_vcmp (o : OpP) (s : State) : exec (.vcmp o) s = execVcmp o s := rfl
@[simp] theorem exec_vcmpi (o : OpP) (s : State) : exec (.vcmpi o) s = execVcmpi o s := rfl
@[simp] theorem exec_vfcmp (o : OpP) (s : State) : exec (.vfcmp o) s = execVfcmp o s := rfl
@[simp] theorem exec_vsel (o : OpV) (s : State) : exec (.vsel o) s = execVsel o s := rfl
@[simp] theorem exec_vmovi (o : OpVI) (s : State) : exec (.vmovi o) s = execVmovi o s := rfl
@[simp] theorem exec_vaddsat (o : OpV) (s : State) : exec (.vaddsat o) s = execVaddsat o s := rfl
@[simp] theorem exec_vsubsat (o : OpV) (s : State) : exec (.vsubsat o) s = execVsubsat o s := rfl
@[simp] theorem exec_vdot4 (o : OpV) (s : State) : exec (.vdot4 o) s = execVdot4 o s := rfl
@[simp] theorem exec_vdot4s (o : OpV) (s : State) : exec (.vdot4s o) s = execVdot4s o s := rfl
@[simp] theorem exec_vdot2 (o : OpV) (s : State) : exec (.vdot2 o) s = execVdot2 o s := rfl
@[simp] theorem exec_vfadd (o : OpV) (s : State) : exec (.vfadd o) s = execVfadd o s := rfl
@[simp] theorem exec_vfsub (o : OpV) (s : State) : exec (.vfsub o) s = execVfsub o s := rfl
@[simp] theorem exec_vfmul (o : OpV) (s : State) : exec (.vfmul o) s = execVfmul o s := rfl
@[simp] theorem exec_vfma (o : OpV) (s : State) : exec (.vfma o) s = execVfma o s := rfl
@[simp] theorem exec_vbfma (o : OpV) (s : State) : exec (.vbfma o) s = execVbfma o s := rfl
@[simp] theorem exec_vfmin (o : OpV) (s : State) : exec (.vfmin o) s = execVfmin o s := rfl
@[simp] theorem exec_vfmax (o : OpV) (s : State) : exec (.vfmax o) s = execVfmax o s := rfl
@[simp] theorem exec_vfabs (o : OpV) (s : State) : exec (.vfabs o) s = execVfabs o s := rfl
@[simp] theorem exec_vfneg (o : OpV) (s : State) : exec (.vfneg o) s = execVfneg o s := rfl
@[simp] theorem exec_vfcvt (o : OpV) (s : State) : exec (.vfcvt o) s = execVfcvt o s := rfl
@[simp] theorem exec_vnrw (o : OpV) (s : State) : exec (.vnrw o) s = execVnrw o s := rfl
@[simp] theorem exec_vwdn (o : OpV) (s : State) : exec (.vwdn o) s = execVwdn o s := rfl
@[simp] theorem exec_vrcp (o : OpV) (s : State) : exec (.vrcp o) s = execVrcp o s := rfl
@[simp] theorem exec_vrsq (o : OpV) (s : State) : exec (.vrsq o) s = execVrsq o s := rfl
@[simp] theorem exec_vexp2 (o : OpV) (s : State) : exec (.vexp2 o) s = execVexp2 o s := rfl
@[simp] theorem exec_vlog2 (o : OpV) (s : State) : exec (.vlog2 o) s = execVlog2 o s := rfl
@[simp] theorem exec_vld (o : OpV) (s : State) : exec (.vld o) s = execVld o s := rfl
@[simp] theorem exec_vst (o : OpV) (s : State) : exec (.vst o) s = execVst o s := rfl
@[simp] theorem exec_vldg (o : OpV) (s : State) : exec (.vldg o) s = execVldg o s := rfl
@[simp] theorem exec_vsts (o : OpV) (s : State) : exec (.vsts o) s = execVsts o s := rfl
@[simp] theorem exec_vshuf (o : OpV) (s : State) : exec (.vshuf o) s = execVshuf o s := rfl
@[simp] theorem exec_vred (o : OpV) (s : State) : exec (.vred o) s = execVred o s := rfl
@[simp] theorem exec_vscan (o : OpV) (s : State) : exec (.vscan o) s = execVscan o s := rfl
@[simp] theorem exec_vcntp (o : OpV) (s : State) : exec (.vcntp o) s = execVcntp o s := rfl
@[simp] theorem exec_vlane (o : OpV) (s : State) : exec (.vlane o) s = execVlane o s := rfl
@[simp] theorem exec_xmovvBay (o : OpV) (s : State) : exec (.xmovvBay o) s = execXmovvBay o s := rfl
@[simp] theorem exec_xmovvAll (o : OpV) (s : State) : exec (.xmovvAll o) s = execXmovvAll o s := rfl
@[simp] theorem exec_xmovvA (o : OpV) (s : State) : exec (.xmovvA o) s = execXmovvA o s := rfl
@[simp] theorem exec_xmovvA2 (o : OpV) (s : State) : exec (.xmovvA2 o) s = execXmovvA2 o s := rfl
@[simp] theorem exec_mma (o : OpMA) (s : State) : exec (.mma o) s = execMma o s := rfl
@[simp] theorem exec_mmaz (o : OpMA) (s : State) : exec (.mmaz o) s = execMmaz o s := rfl
@[simp] theorem exec_mmag (o : OpMA) (s : State) : exec (.mmag o) s = execMmag o s := rfl
@[simp] theorem exec_midx (o : OpMI) (s : State) : exec (.midx o) s = execMidx o s := rfl
@[simp] theorem exec_mld (o : OpMX) (s : State) : exec (.mld o) s = execMld o s := rfl
@[simp] theorem exec_mst (o : OpMX) (s : State) : exec (.mst o) s = execMst o s := rfl
@[simp] theorem exec_mzero (o : OpMT) (s : State) : exec (.mzero o) s = execMzero o s := rfl
@[simp] theorem exec_mtrn (o : OpMT) (s : State) : exec (.mtrn o) s = execMtrn o s := rfl
@[simp] theorem exec_mrowmax (o : OpMT) (s : State) : exec (.mrowmax o) s = execMrowmax o s := rfl
@[simp] theorem exec_mrowsum (o : OpMT) (s : State) : exec (.mrowsum o) s = execMrowsum o s := rfl
@[simp] theorem exec_mscale (o : OpMT) (s : State) : exec (.mscale o) s = execMscale o s := rfl
@[simp] theorem exec_maddt (o : OpMT) (s : State) : exec (.maddt o) s = execMaddt o s := rfl
@[simp] theorem exec_mwait (o : OpMW) (s : State) : exec (.mwait o) s = execMwait o s := rfl
@[simp] theorem exec_mOpStart (core : Nat) (s : State) : exec (.mOpStart core) s = execMOpStart core s := rfl
@[simp] theorem exec_mOpComplete (core : Nat) (s : State) : exec (.mOpComplete core) s = execMOpComplete core s := rfl
@[simp] theorem exec_dcopy (o : OpDE) (s : State) : exec (.dcopy o) s = execDcopy o s := rfl
@[simp] theorem exec_dcopy2 (o : OpDE) (s : State) : exec (.dcopy2 o) s = execDcopy2 o s := rfl
@[simp] theorem exec_dgath (o : OpDE) (s : State) : exec (.dgath o) s = execDgath o s := rfl
@[simp] theorem exec_dfill (o : OpDE) (s : State) : exec (.dfill o) s = execDfill o s := rfl
@[simp] theorem exec_dtbl (o : OpDE) (s : State) : exec (.dtbl o) s = execDtbl o s := rfl
@[simp] theorem exec_dtblld (o : OpDR) (s : State) : exec (.dtblld o) s = execDtblld o s := rfl
@[simp] theorem exec_dpref (o : OpDR) (s : State) : exec (.dpref o) s = execDpref o s := rfl
@[simp] theorem exec_dflush (o : OpDR) (s : State) : exec (.dflush o) s = execDflush o s := rfl
@[simp] theorem exec_shut (o : OpDE) (s : State) : exec (.shut o) s = execShut o s := rfl
@[simp] theorem exec_openp (o : OpDE) (s : State) : exec (.openp o) s = execOpenp o s := rfl
@[simp] theorem exec_engineCompletion (team : Nat) (e : EngineEnd) (s : State) :
    exec (.engineCompletion team e) s = execEngineCompletion team e s := rfl
@[simp] theorem exec_enq (o : OpDR) (s : State) : exec (.enq o) s = execEnq o s := rfl
@[simp] theorem exec_enqAck (strand : Nat) (s : State) : exec (.enqAck strand) s = execEnqAck strand s := rfl
@[simp] theorem exec_enqResend (strand : Nat) (s : State) : exec (.enqResend strand) s = execEnqResend strand s := rfl
@[simp] theorem exec_deq (o : OpDR) (s : State) : exec (.deq o) s = execDeq o s := rfl
@[simp] theorem exec_deqNb (o : OpDR) (s : State) : exec (.deqNb o) s = execDeqNb o s := rfl
@[simp] theorem exec_qctlOpen (o : OpDR) (s : State) : exec (.qctlOpen o) s = execQctlOpen o s := rfl
@[simp] theorem exec_qctlClose (o : OpDR) (s : State) : exec (.qctlClose o) s = execQctlClose o s := rfl
@[simp] theorem exec_qctlBackoff (o : OpDR) (s : State) : exec (.qctlBackoff o) s = execQctlBackoff o s := rfl
@[simp] theorem exec_qctlDepth (o : OpDR) (s : State) : exec (.qctlDepth o) s = execQctlDepth o s := rfl
@[simp] theorem exec_tsub (o : OpDR) (s : State) : exec (.tsub o) s = execTsub o s := rfl
@[simp] theorem exec_launch (o : OpDR) (s : State) : exec (.launch o) s = execLaunch o s := rfl
@[simp] theorem exec_jraise (o : OpDR) (s : State) : exec (.jraise o) s = execJraise o s := rfl
@[simp] theorem exec_jwait (o : OpDR) (s : State) : exec (.jwait o) s = execJwait o s := rfl
@[simp] theorem exec_jdone (o : OpDR) (s : State) : exec (.jdone o) s = execJdone o s := rfl
@[simp] theorem exec_jflags (o : OpDR) (s : State) : exec (.jflags o) s = execJflags o s := rfl
@[simp] theorem exec_rsend (o : OpDE) (s : State) : exec (.rsend o) s = execRsend o s := rfl
@[simp] theorem exec_rrecv (o : OpDE) (s : State) : exec (.rrecv o) s = execRrecv o s := rfl
@[simp] theorem exec_pfxlook (o : OpDR) (s : State) : exec (.pfxlook o) s = execPfxlook o s := rfl
@[simp] theorem exec_pfxins (o : OpDR) (s : State) : exec (.pfxins o) s = execPfxins o s := rfl
@[simp] theorem exec_trim (o : OpDR) (s : State) : exec (.trim o) s = execTrim o s := rfl
@[simp] theorem exec_pin (o : OpDR) (s : State) : exec (.pin o) s = execPin o s := rfl
@[simp] theorem exec_stopen (o : OpDR) (s : State) : exec (.stopen o) s = execStopen o s := rfl
@[simp] theorem exec_stclose (o : OpDR) (s : State) : exec (.stclose o) s = execStclose o s := rfl
@[simp] theorem exec_strung (o : OpDR) (s : State) : exec (.strung o) s = execStrung o s := rfl
@[simp] theorem exec_frameRsv (o : OpDR) (s : State) : exec (.frameRsv o) s = execFrameRsv o s := rfl
@[simp] theorem exec_framePub (o : OpDR) (s : State) : exec (.framePub o) s = execFramePub o s := rfl
@[simp] theorem exec_frameChk (o : OpDR) (s : State) : exec (.frameChk o) s = execFrameChk o s := rfl
@[simp] theorem exec_seedset (o : OpDR) (s : State) : exec (.seedset o) s = execSeedset o s := rfl
@[simp] theorem exec_cbset (o : OpDR) (s : State) : exec (.cbset o) s = execCbset o s := rfl
@[simp] theorem exec_xlinvRng (o : OpDR) (s : State) : exec (.xlinvRng o) s = execXlinvRng o s := rfl
@[simp] theorem exec_xlinvAsid (o : OpDR) (s : State) : exec (.xlinvAsid o) s = execXlinvAsid o s := rfl
@[simp] theorem exec_xlinvAll (o : OpDR) (s : State) : exec (.xlinvAll o) s = execXlinvAll o s := rfl
@[simp] theorem exec_crset (o : OpDR) (s : State) : exec (.crset o) s = execCrset o s := rfl
@[simp] theorem exec_roleChangeDrainDone (s : State) : exec .roleChangeDrainDone s = execRoleChangeDrainDone s := rfl
@[simp] theorem exec_roleChangeFlushDone (s : State) : exec .roleChangeFlushDone s = execRoleChangeFlushDone s := rfl
@[simp] theorem exec_distributorSelection (s : State) : exec .distributorSelection s = execDistributorSelection s := rfl
@[simp] theorem exec_teamExit (team : Nat) (s : State) : exec (.teamExit team) s = execTeamExit team s := rfl
@[simp] theorem exec_bankLoadComplete (core : Nat) (bank : Nat) (s : State) : exec (.bankLoadComplete core bank) s = execBankLoadComplete core bank s := rfl
@[simp] theorem exec_bankDrainComplete (core : Nat) (bank : Nat) (s : State) : exec (.bankDrainComplete core bank) s = execBankDrainComplete core bank s := rfl
@[simp] theorem exec_preemptionPoint (core : Nat) (s : State) : exec (.preemptionPoint core) s = execPreemptionPoint core s := rfl
@[simp] theorem exec_swapEnd (core : Nat) (s : State) : exec (.swapEnd core) s = execSwapEnd core s := rfl
@[simp] theorem exec_spillStep (core : Nat) (s : State) : exec (.spillStep core) s = execSpillStep core s := rfl
@[simp] theorem exec_fillStep (core : Nat) (s : State) : exec (.fillStep core) s = execFillStep core s := rfl
@[simp] theorem exec_streamRelease (stream : Nat) (s : State) : exec (.streamRelease stream) s = execStreamRelease stream s := rfl
@[simp] theorem exec_deferredRelease (stream : Nat) (s : State) : exec (.deferredRelease stream) s = execDeferredRelease stream s := rfl
@[simp] theorem exec_ringStallTimeout (stream : Nat) (ring : Nat) (s : State) : exec (.ringStallTimeout stream ring) s = execRingStallTimeout stream ring s := rfl
@[simp] theorem exec_encoderEntry (engine : Nat) (s : State) : exec (.encoderEntry engine) s = execEncoderEntry engine s := rfl
@[simp] theorem exec_encoderBandRead (stream : Nat) (s : State) : exec (.encoderBandRead stream) s = execEncoderBandRead stream s := rfl
@[simp] theorem exec_encoderRepeatFrame (stream : Nat) (s : State) : exec (.encoderRepeatFrame stream) s = execEncoderRepeatFrame stream s := rfl
@[simp] theorem exec_bitstreamRingSpace (stream : Nat) (s : State) : exec (.bitstreamRingSpace stream) s = execBitstreamRingSpace stream s := rfl
@[simp] theorem exec_clusterHalt (course : Nat) (cluster : Nat) (s : State) : exec (.clusterHalt course cluster) s = execClusterHalt course cluster s := rfl
@[simp] theorem exec_patternChange (course : Nat) (cluster : Nat) (s : State) : exec (.patternChange course cluster) s = execPatternChange course cluster s := rfl
@[simp] theorem exec_dwellEnd (course : Nat) (cluster : Nat) (s : State) : exec (.dwellEnd course cluster) s = execDwellEnd course cluster s := rfl
@[simp] theorem exec_fltqlostRead (s : State) : exec .fltqlostRead s = execFltqlostRead s := rfl
@[simp] theorem exec_bar2errRead (s : State) : exec .bar2errRead s = execBar2errRead s := rfl
@[simp] theorem exec_mctlReset (s : State) : exec .mctlReset s = execMctlReset s := rfl
@[simp] theorem exec_mctlJclr (s : State) : exec .mctlJclr s = execMctlJclr s := rfl
@[simp] theorem exec_revolutionTimeout (port : Nat) (layer : Nat) (frame : Nat) (s : State) : exec (.revolutionTimeout port layer frame) s = execRevolutionTimeout port layer frame s := rfl
@[simp] theorem exec_powerOn (s : State) : exec .powerOn s = execPowerOn s := rfl
@[simp] theorem exec_hostHotReset (s : State) : exec .hostHotReset s = execHostHotReset s := rfl
@[simp] theorem exec_stepWatchdog (s : State) : exec .stepWatchdog s = execStepWatchdog s := rfl
@[simp] theorem exec_powerLoss (s : State) : exec .powerLoss s = execPowerLoss s := rfl
@[simp] theorem exec_roleChangeTestDone (s : State) : exec .roleChangeTestDone s = execRoleChangeTestDone s := rfl
@[simp] theorem exec_dOperationComplete (strand : Nat) (s : State) : exec (.dOperationComplete strand) s = execDOperationComplete strand s := rfl
@[simp] theorem exec_stallBundle (core : Nat) (s : State) : exec (.stallBundle core) s = execStallBundle core s := rfl
@[simp] theorem exec_pcieCompletionTimeout (strand : Nat) (s : State) : exec (.pcieCompletionTimeout strand) s = execPcieCompletionTimeout strand s := rfl
@[simp] theorem exec_ringPairComplete (port : Nat) (side : RingSide) (ok : Bool) (data : List Nat) (s : State) :
    exec (.ringPairComplete port side ok data) s = execRingPairComplete port side ok data s := rfl
@[simp] theorem exec_controlPeriodEnd (temps : List Nat) (power : Nat) (s : State) : exec (.controlPeriodEnd temps power) s = execControlPeriodEnd temps power s := rfl
@[simp] theorem exec_droopStretch (course : Nat) (s : State) : exec (.droopStretch course) s = execDroopStretch course s := rfl
@[simp] theorem exec_refreshOperation (course : Nat) (s : State) : exec (.refreshOperation course) s = execRefreshOperation course s := rfl
@[simp] theorem exec_courseFailure (course : Nat) (s : State) : exec (.courseFailure course) s = execCourseFailure course s := rfl
@[simp] theorem exec_firmwareEccError (addr : Nat) (s : State) : exec (.firmwareEccError addr) s = execFirmwareEccError addr s := rfl
@[simp] theorem exec_fltqptrHeadWrite (value : Nat) (s : State) : exec (.fltqptrHeadWrite value) s = execFltqptrHeadWrite value s := rfl
@[simp] theorem exec_fdispResume (token : Nat) (strand : Nat) (s : State) : exec (.fdispResume token strand) s = execFdispResume token strand s := rfl
@[simp] theorem exec_fdispSkiprep (token : Nat) (strand : Nat) (s : State) : exec (.fdispSkiprep token strand) s = execFdispSkiprep token strand s := rfl
@[simp] theorem exec_fdispSkip (token : Nat) (strand : Nat) (s : State) : exec (.fdispSkip token strand) s = execFdispSkip token strand s := rfl
@[simp] theorem exec_fdispTerm (token : Nat) (strand : Nat) (s : State) : exec (.fdispTerm token strand) s = execFdispTerm token strand s := rfl
@[simp] theorem exec_fdispKill (token : Nat) (strand : Nat) (s : State) : exec (.fdispKill token strand) s = execFdispKill token strand s := rfl
@[simp] theorem exec_keystoneDisposition (disp : Nat) (token : Nat) (strand : Nat) (s : State) : exec (.keystoneDisposition disp token strand) s = execKeystoneDisposition disp token strand s := rfl
@[simp] theorem exec_admlimWrite (value : Nat) (s : State) : exec (.admlimWrite value) s = execAdmlimWrite value s := rfl
@[simp] theorem exec_stctlPoison (stream : Nat) (ring : Nat) (pidx : Nat) (s : State) : exec (.stctlPoison stream ring pidx) s = execStctlPoison stream ring pidx s := rfl
@[simp] theorem exec_stctlIrq (stream : Nat) (on : Bool) (s : State) : exec (.stctlIrq stream on) s = execStctlIrq stream on s := rfl
@[simp] theorem exec_queueSuspend (queue : Nat) (on : Bool) (s : State) : exec (.queueSuspend queue on) s = execQueueSuspend queue on s := rfl
@[simp] theorem exec_queueRank (queue : Nat) (rank : Nat) (s : State) : exec (.queueRank queue rank) s = execQueueRank queue rank s := rfl
@[simp] theorem exec_fpush (value : Nat) (s : State) : exec (.fpush value) s = execFpush value s := rfl
@[simp] theorem exec_hmbxWrite (desc : Nat) (value : Nat) (s : State) : exec (.hmbxWrite desc value) s = execHmbxWrite desc value s := rfl
@[simp] theorem exec_hintrWrite (value : Nat) (s : State) : exec (.hintrWrite value) s = execHintrWrite value s := rfl
@[simp] theorem exec_rpstatArm (port : Nat) (s : State) : exec (.rpstatArm port) s = execRpstatArm port s := rfl
@[simp] theorem exec_mctlRload (len : Nat) (s : State) : exec (.mctlRload len) s = execMctlRload len s := rfl
@[simp] theorem exec_registerWrite (offset : Nat) (size : Nat) (value : Nat) (level : Nat) (s : State) : exec (.registerWrite offset size value level) s = execRegisterWrite offset size value level s := rfl
@[simp] theorem exec_bar2Read (offset : Nat) (n : Nat) (s : State) : exec (.bar2Read offset n) s = execBar2Read offset n s := rfl
@[simp] theorem exec_bar2Write (offset : Nat) (bytes : List Nat) (s : State) : exec (.bar2Write offset bytes) s = execBar2Write offset bytes s := rfl
@[simp] theorem exec_bar2Atomicop (offset : Nat) (n : Nat) (op : Nat) (value : Nat) (compare : Nat) (s : State) : exec (.bar2Atomicop offset n op value compare) s = execBar2Atomicop offset n op value compare s := rfl
@[simp] theorem exec_ringWindowWrite (port : Nat) (fromNext : Bool) (offset : Nat) (value : Nat) (s : State) : exec (.ringWindowWrite port fromNext offset value) s = execRingWindowWrite port fromNext offset value s := rfl
@[simp] theorem exec_ringLinkDown (port : Nat) (s : State) : exec (.ringLinkDown port) s = execRingLinkDown port s := rfl
@[simp] theorem exec_ideIntegrityFailure (port : Nat) (stream : Nat) (s : State) : exec (.ideIntegrityFailure port stream) s = execIdeIntegrityFailure port stream s := rfl
@[simp] theorem exec_ideKm (port : Nat) (stream : Nat) (key : Nat) (s : State) : exec (.ideKm port stream key) s = execIdeKm port stream key s := rfl
@[simp] theorem exec_getVersion (port : Nat) (s : State) : exec (.getVersion port) s = execGetVersion port s := rfl
@[simp] theorem exec_getCapabilities (port : Nat) (s : State) : exec (.getCapabilities port) s = execGetCapabilities port s := rfl
@[simp] theorem exec_negotiateAlgorithms (port : Nat) (s : State) : exec (.negotiateAlgorithms port) s = execNegotiateAlgorithms port s := rfl
@[simp] theorem exec_getDigests (port : Nat) (s : State) : exec (.getDigests port) s = execGetDigests port s := rfl
@[simp] theorem exec_getCertificate (port : Nat) (slot : Nat) (offset : Nat) (length : Nat) (s : State) : exec (.getCertificate port slot offset length) s = execGetCertificate port slot offset length s := rfl
@[simp] theorem exec_challenge (port : Nat) (slot : Nat) (nonce : Nat) (s : State) : exec (.challenge port slot nonce) s = execChallenge port slot nonce s := rfl
@[simp] theorem exec_getMeasurements (port : Nat) (index : Nat) (nonce : Nat) (s : State) : exec (.getMeasurements port index nonce) s = execGetMeasurements port index nonce s := rfl
@[simp] theorem exec_keyExchange (port : Nat) (slot : Nat) (exchange : Nat) (s : State) : exec (.keyExchange port slot exchange) s = execKeyExchange port slot exchange s := rfl
@[simp] theorem exec_finish (port : Nat) (mac : Nat) (s : State) : exec (.finish port mac) s = execFinish port mac s := rfl
@[simp] theorem exec_startStepEnd (pass : Bool) (mask : Nat) (detail : Nat) (s : State) : exec (.startStepEnd pass mask detail) s = execStartStepEnd pass mask detail s := rfl
@[simp] theorem exec_msixVectorUnmask (vector : Nat) (s : State) : exec (.msixVectorUnmask vector) s = execMsixVectorUnmask vector s := rfl
@[simp] theorem exec_resizableBarWrite (size : Nat) (s : State) : exec (.resizableBarWrite size) s = execResizableBarWrite size s := rfl

end Sys2Proof
end

