-- ==== Sys2Proof/Laws/Maps.lean ====
section
/-! SUPPORT. Laws of the tables: what a table reads after each operation, and that each operation keeps the canonical form. -/

namespace Sys2Proof.Machine

/-! ### Reading after an operation -/

theorem NMap.get_insert_self {α : Type} (d : α) (k : Nat) (v : α) (m : NMap α) (h : ∀ p ∈ m, p.1 ≠ k) :
    NMap.get d (NMap.insert k v m) k = v := by
  induction m with
  | nil => simp [NMap.insert, NMap.get]
  | cons p r ih =>
    obtain ⟨j, w⟩ := p
    have hj : j ≠ k := h (j, w) (by simp)
    unfold NMap.insert
    split
    · simp [NMap.get]
    · simp only [NMap.get, hj, if_false]
      exact ih (fun p hp => h p (by simp [hp]))

theorem NMap.get_insert_ne {α : Type} (d : α) (k : Nat) (v : α) (m : NMap α) (j : Nat) (h : j ≠ k) :
    NMap.get d (NMap.insert k v m) j = NMap.get d m j := by
  induction m with
  | nil => simp [NMap.insert, NMap.get, Ne.symm h]
  | cons p r ih =>
    obtain ⟨i, w⟩ := p
    unfold NMap.insert
    split
    · simp [NMap.get, Ne.symm h]
    · simp only [NMap.get]
      split
      · rfl
      · exact ih

theorem NMap.get_filter_key {α : Type} (d : α) (q : Nat → Bool) (m : NMap α) (j : Nat) :
    NMap.get d (m.filter (fun p => q p.1)) j = if q j then NMap.get d m j else d := by
  induction m with
  | nil => simp [NMap.get]
  | cons p r ih =>
    obtain ⟨i, w⟩ := p
    by_cases hi : i = j
    · subst hi
      by_cases hq : q i
      · simp [hq, NMap.get]
      · simpa [hq, NMap.get] using ih
    · by_cases hq : q i
      · simp [hq, NMap.get, hi, ih]
      · simp [hq, NMap.get, hi, ih]

theorem NMap.get_erase {α : Type} (d : α) (m : NMap α) (k j : Nat) :
    NMap.get d (NMap.erase m k) j = if j = k then d else NMap.get d m j := by
  simpa [NMap.erase, bne_iff_ne] using NMap.get_filter_key d (fun i => i != k) m j

theorem NMap.erase_ne {α : Type} (m : NMap α) (k : Nat) : ∀ p ∈ NMap.erase m k, p.1 ≠ k := by
  intro p hp
  simpa [NMap.erase] using (List.mem_filter.mp hp).2

/-- What a table reads after its entry of key `k` is set: the new value at `k`, what it read before elsewhere. -/
@[simp] theorem NMap.get_set {α : Type} [DecidableEq α] (d : α) (m : NMap α) (k : Nat) (v : α) (j : Nat) :
    NMap.get d (NMap.set d m k v) j = if j = k then v else NMap.get d m j := by
  unfold NMap.set
  split
  · next h => rw [NMap.get_erase, h]
  · by_cases hj : j = k
    · subst hj
      simp [NMap.get_insert_self d j v _ (NMap.erase_ne m j)]
    · simp [NMap.get_insert_ne d k v _ j hj, NMap.get_erase, hj]

@[simp] theorem NMap.get_upd {α : Type} [DecidableEq α] (d : α) (m : NMap α) (k : Nat) (f : α → α) (j : Nat) :
    NMap.get d (NMap.upd d m k f) j = if j = k then f (NMap.get d m k) else NMap.get d m j := by
  simp [NMap.upd]

theorem NMap.erase_of_ne {α : Type} (m : NMap α) (k : Nat) (h : ∀ p ∈ m, p.1 ≠ k) : NMap.erase m k = m := by
  unfold NMap.erase
  exact List.filter_eq_self.mpr (fun p hp => by simpa using h p hp)

theorem NMap.erase_insert {α : Type} (k : Nat) (v : α) (m : NMap α) (h : ∀ p ∈ m, p.1 ≠ k) :
    NMap.erase (NMap.insert k v m) k = m := by
  induction m with
  | nil => simp [NMap.insert, NMap.erase]
  | cons p r ih =>
    obtain ⟨j, w⟩ := p
    have hj : j ≠ k := h (j, w) (by simp)
    have hr : ∀ p ∈ r, p.1 ≠ k := fun p hp => h p (by simp [hp])
    unfold NMap.insert
    split
    · have := NMap.erase_of_ne ((j, w) :: r) k h
      simpa [NMap.erase] using this
    · have := ih hr
      simp only [NMap.erase] at this ⊢
      simp [hj, this]

/-- A second write of one entry replaces the first. -/
@[simp] theorem NMap.set_set {α : Type} [DecidableEq α] (d : α) (m : NMap α) (k : Nat) (v w : α) :
    NMap.set d (NMap.set d m k v) k w = NMap.set d m k w := by
  have h : NMap.erase (NMap.set d m k v) k = NMap.erase m k := by
    unfold NMap.set
    split
    · exact NMap.erase_of_ne _ k (NMap.erase_ne m k)
    · exact NMap.erase_insert k v _ (NMap.erase_ne m k)
  unfold NMap.set at h ⊢
  rw [h]

@[simp] theorem NMap.upd_upd {α : Type} [DecidableEq α] (d : α) (m : NMap α) (k : Nat) (f g : α → α) :
    NMap.upd d (NMap.upd d m k f) k g = NMap.upd d m k (fun x => g (f x)) := by
  simp [NMap.upd]

@[simp] theorem NMap.get_nil {α : Type} (d : α) (j : Nat) : NMap.get d ([] : NMap α) j = d := rfl

theorem NMap.get_append {α : Type} (d : α) (m n : NMap α) (j : Nat) :
    NMap.get d (m ++ n) j = if j ∈ m.map (·.1) then NMap.get d m j else NMap.get d n j := by
  induction m with
  | nil => simp
  | cons p r ih =>
    obtain ⟨i, w⟩ := p
    by_cases hi : i = j
    · simp [NMap.get, hi]
    · simp only [List.cons_append, NMap.get, hi, if_false, ih, List.map_cons, List.mem_cons, Ne.symm hi, false_or]

theorem NMap.entries_keys {α : Type} [DecidableEq α] (d : α) (vs : List α) (base : Nat) :
    ∀ p ∈ NMap.entries d base vs, base ≤ p.1 ∧ p.1 < base + vs.length := by
  induction vs generalizing base with
  | nil => simp [NMap.entries]
  | cons v r ih =>
    intro p hp
    simp only [NMap.entries] at hp
    split at hp
    · have := ih (base + 1) p hp
      simp only [List.length_cons]
      omega
    · rcases List.mem_cons.mp hp with rfl | hp
      · simp
      · have := ih (base + 1) p hp
        simp only [List.length_cons]
        omega

theorem NMap.get_entries {α : Type} [DecidableEq α] (d : α) (vs : List α) (base j : Nat) :
    NMap.get d (NMap.entries d base vs) j = if base ≤ j then vs.getD (j - base) d else d := by
  induction vs generalizing base with
  | nil => simp [NMap.entries]
  | cons v r ih =>
    simp only [NMap.entries]
    rcases Nat.lt_trichotomy j base with h | h | h
    · have h1 : ¬ base ≤ j := by omega
      have h2 : ¬ base + 1 ≤ j := by omega
      have e := (ih (base + 1)).trans (if_neg h2)
      rw [if_neg h1]
      by_cases hv : v = d
      · rw [if_pos hv]; exact e
      · rw [if_neg hv, NMap.get, if_neg (by omega)]; exact e
    · subst h
      have e := (ih (j + 1)).trans (if_neg (by omega))
      rw [if_pos (Nat.le_refl j), Nat.sub_self, List.getD_cons_zero]
      by_cases hv : v = d
      · rw [if_pos hv, e, hv]
      · rw [if_neg hv, NMap.get, if_pos rfl]
    · have h2 : base + 1 ≤ j := by omega
      have h3 : j - base = (j - (base + 1)) + 1 := by omega
      have e := (ih (base + 1)).trans (if_pos h2)
      have h1 : base ≤ j := by omega
      rw [if_pos h1, h3, List.getD_cons_succ]
      by_cases hv : v = d
      · rw [if_pos hv]; exact e
      · rw [if_neg hv, NMap.get, if_neg (by omega)]; exact e

/-- What a table reads after a run of entries is set. -/
theorem NMap.get_setList {α : Type} [DecidableEq α] (d : α) (m : NMap α) (base : Nat) (vs : List α) (j : Nat) :
    NMap.get d (NMap.setList d m base vs) j =
      if base ≤ j ∧ j < base + vs.length then vs.getD (j - base) d else NMap.get d m j := by
  have hlow : NMap.get d (m.filter (fun p => p.1 < base)) j = if j < base then NMap.get d m j else d := by
    simpa using NMap.get_filter_key d (fun i => decide (i < base)) m j
  have hhigh : NMap.get d (m.filter (fun p => base + vs.length ≤ p.1)) j =
      if base + vs.length ≤ j then NMap.get d m j else d := by
    simpa using NMap.get_filter_key d (fun i => decide (base + vs.length ≤ i)) m j
  unfold NMap.setList
  rw [List.append_assoc, NMap.get_append]
  by_cases h1 : j < base
  · have hb : ¬ (base ≤ j ∧ j < base + vs.length) := by omega
    rw [if_neg hb]
    split
    · rw [hlow, if_pos h1]
    · next hm =>
      rw [NMap.get_append, hhigh]
      have he : ¬ j ∈ (NMap.entries d base vs).map (·.1) := by
        simp only [List.mem_map, not_exists, not_and]
        intro p hp he
        have := NMap.entries_keys d vs base p hp
        omega
      have h2 : ¬ base + vs.length ≤ j := by omega
      rw [if_neg he, if_neg h2]
      have hq : NMap.get d (m.filter (fun p => p.1 < base)) j = d := by
        revert hm
        generalize (m.filter (fun p => decide (p.1 < base))) = l
        intro hm
        induction l with
        | nil => rfl
        | cons p r ih =>
          obtain ⟨i, w⟩ := p
          simp only [List.map_cons, List.mem_cons, not_or] at hm
          simp [NMap.get, Ne.symm hm.1, ih hm.2]
      rw [hlow, if_pos h1] at hq
      exact hq.symm
  · have hn : ¬ j ∈ (m.filter (fun p => decide (p.1 < base))).map (·.1) := by
      simp only [List.mem_map, List.mem_filter, decide_eq_true_eq, not_exists, not_and]
      intro p hp he
      omega
    rw [if_neg hn, NMap.get_append]
    by_cases h2 : j < base + vs.length
    · have hb : base ≤ j ∧ j < base + vs.length := by omega
      rw [if_pos hb]
      split
      · rw [NMap.get_entries, if_pos hb.1]
      · next hm =>
        have h3 : ¬ base + vs.length ≤ j := by omega
        rw [hhigh, if_neg h3]
        have hq : NMap.get d (NMap.entries d base vs) j = d := by
          revert hm
          generalize NMap.entries d base vs = l
          intro hm
          induction l with
          | nil => rfl
          | cons p r ih =>
            obtain ⟨i, w⟩ := p
            simp only [List.map_cons, List.mem_cons, not_or] at hm
            simp [NMap.get, Ne.symm hm.1, ih hm.2]
        rw [NMap.get_entries, if_pos hb.1] at hq
        exact hq.symm
    · have hb : ¬ (base ≤ j ∧ j < base + vs.length) := by omega
      have he : ¬ j ∈ (NMap.entries d base vs).map (·.1) := by
        simp only [List.mem_map, not_exists, not_and]
        intro p hp he
        have := NMap.entries_keys d vs base p hp
        omega
      have h3 : base + vs.length ≤ j := by omega
      rw [if_neg he, if_neg hb, hhigh, if_pos h3]

/-- The entries of a run, each as the table reads it. -/
theorem NMap.getList_eq {α : Type} (d : α) (m : NMap α) (base n : Nat) :
    NMap.getList d m base n = (List.range n).map (fun i => NMap.get d m (base + i)) := by
  unfold NMap.getList
  apply List.map_congr_left
  intro i hi
  have hi' := List.mem_range.mp hi
  have := NMap.get_filter_key d (fun k => decide (base ≤ k) && decide (k < base + n)) m (base + i)
  simpa [hi'] using this

/-! ### The canonical form -/

/-- The canonical form, by its parts: keys rising, no default listed. -/
theorem NMap.wf_iff {α : Type} [DecidableEq α] (d : α) (m : NMap α) :
    NMap.wf d m = true ↔ m.Pairwise (fun p q => p.1 < q.1) ∧ ∀ p ∈ m, p.2 ≠ d := by
  induction m with
  | nil => simp [NMap.wf]
  | cons p r ih =>
    obtain ⟨j, v⟩ := p
    cases r with
    | nil => simp [NMap.wf]
    | cons q r =>
      obtain ⟨k, w⟩ := q
      simp only [NMap.wf, Bool.and_eq_true, bne_iff_ne, decide_eq_true_eq, ih]
      constructor
      · rintro ⟨⟨hv, hjk⟩, hp, hd⟩
        refine ⟨List.pairwise_cons.mpr ⟨?_, hp⟩, ?_⟩
        · intro a ha
          rcases List.mem_cons.mp ha with rfl | ha
          · exact hjk
          · exact Nat.lt_trans hjk ((List.pairwise_cons.mp hp).1 a ha)
        · intro a ha
          rcases List.mem_cons.mp ha with rfl | ha
          · exact hv
          · exact hd a ha
      · rintro ⟨hp, hd⟩
        have h1 := List.pairwise_cons.mp hp
        exact ⟨⟨hd (j, v) (by simp), h1.1 (k, w) (by simp)⟩, h1.2, fun a ha => hd a (by simp [ha])⟩

theorem NMap.wf_filter {α : Type} [DecidableEq α] (d : α) (m : NMap α) (f : Nat × α → Bool) (h : NMap.wf d m = true) :
    NMap.wf d (m.filter f) = true := by
  rw [NMap.wf_iff] at h ⊢
  exact ⟨h.1.filter f, fun p hp => h.2 p (List.mem_filter.mp hp).1⟩

theorem NMap.mem_insert {α : Type} (k : Nat) (v : α) (m : NMap α) (p : Nat × α) :
    p ∈ NMap.insert k v m ↔ p = (k, v) ∨ p ∈ m := by
  induction m with
  | nil => simp [NMap.insert]
  | cons q r ih =>
    obtain ⟨j, w⟩ := q
    unfold NMap.insert
    split
    · simp
    · simp only [List.mem_cons, ih, or_left_comm]

theorem NMap.pairwise_insert {α : Type} (k : Nat) (v : α) (m : NMap α) (h : m.Pairwise (fun p q => p.1 < q.1))
    (hk : ∀ p ∈ m, p.1 ≠ k) : (NMap.insert k v m).Pairwise (fun p q => p.1 < q.1) := by
  induction m with
  | nil => simp [NMap.insert]
  | cons q r ih =>
    obtain ⟨j, w⟩ := q
    have hr := List.pairwise_cons.mp h
    have hjk : j ≠ k := hk (j, w) (by simp)
    unfold NMap.insert
    split
    · next hlt =>
      refine List.pairwise_cons.mpr ⟨?_, h⟩
      intro a ha
      rcases List.mem_cons.mp ha with rfl | ha
      · exact hlt
      · exact Nat.lt_trans hlt (hr.1 a ha)
    · next hlt =>
      refine List.pairwise_cons.mpr ⟨?_, ih hr.2 (fun p hp => hk p (by simp [hp]))⟩
      intro a ha
      rcases (NMap.mem_insert k v r a).mp ha with rfl | ha
      · show j < k
        omega
      · exact hr.1 a ha

/-- Setting an entry keeps the canonical form. -/
theorem NMap.wf_set {α : Type} [DecidableEq α] (d : α) (m : NMap α) (k : Nat) (v : α) (h : NMap.wf d m = true) :
    NMap.wf d (NMap.set d m k v) = true := by
  have he : NMap.wf d (NMap.erase m k) = true := NMap.wf_filter d m _ h
  unfold NMap.set
  split
  · exact he
  · next hv =>
    rw [NMap.wf_iff] at he ⊢
    refine ⟨NMap.pairwise_insert k v _ he.1 (NMap.erase_ne m k), ?_⟩
    intro p hp
    rcases (NMap.mem_insert k v _ p).mp hp with rfl | hp
    · exact hv
    · exact he.2 p hp

theorem NMap.wf_upd {α : Type} [DecidableEq α] (d : α) (m : NMap α) (k : Nat) (f : α → α) (h : NMap.wf d m = true) :
    NMap.wf d (NMap.upd d m k f) = true := NMap.wf_set d m k _ h

/-- An update of every entry keeps the canonical form. -/
theorem NMap.wf_mapAll {α : Type} [DecidableEq α] (d : α) (m : NMap α) (f : Nat → α → α) (h : NMap.wf d m = true) :
    NMap.wf d (NMap.mapAll d m f) = true := by
  rw [NMap.wf_iff] at h ⊢
  unfold NMap.mapAll
  refine ⟨?_, fun p hp => by simpa using (List.mem_filter.mp hp).2⟩
  exact List.Pairwise.filter _ (List.pairwise_map.mpr h.1)

/-! ### Device memory -/

/-- A read after a write of one byte. -/
@[simp] theorem Memory.read_write (m : Memory) (a : Nat) (b : Byte) (c : Nat) :
    Memory.read (Memory.write m a b) c = if c = a then b else Memory.read m c := NMap.get_set _ m a b c

theorem Memory.wf_write (m : Memory) (a : Nat) (b : Byte) (h : Memory.wf m = true) : Memory.wf (Memory.write m a b) = true :=
  NMap.wf_set _ m a b h

theorem Memory.wf_filter (m : Memory) (f : Host.Cell → Bool) (h : Memory.wf m = true) : Memory.wf (m.filter f) = true :=
  NMap.wf_filter _ m f h

theorem Memory.wf_foldl_write (l : List (Nat × Byte)) (m : Memory) (h : Memory.wf m = true) :
    Memory.wf (l.foldl (fun m p => Memory.write m p.1 p.2) m) = true := by
  induction l generalizing m with
  | nil => exact h
  | cons p r ih => exact ih _ (Memory.wf_write m p.1 p.2 h)

theorem Memory.wf_writeList (bs : List Byte) (m : Memory) (a : Nat) (h : Memory.wf m = true) :
    Memory.wf (Memory.writeList m a bs) = true := by
  induction bs generalizing m a with
  | nil => exact h
  | cons b r ih => exact ih _ _ (Memory.wf_write m a b h)

/-- A read after a run of bytes is written. -/
theorem Memory.read_writeList (bs : List Byte) (m : Memory) (a c : Nat) :
    Memory.read (Memory.writeList m a bs) c =
      if a ≤ c ∧ c < a + bs.length then bs.getD (c - a) 0 else Memory.read m c := by
  induction bs generalizing m a with
  | nil => rw [if_neg (by simp only [List.length_nil]; omega)]; rfl
  | cons b r ih =>
    rw [Memory.writeList, ih, Memory.read_write, List.length_cons]
    by_cases h1 : a + 1 ≤ c ∧ c < a + 1 + r.length
    · have h3 : c - a = (c - (a + 1)) + 1 := by omega
      rw [if_pos h1, if_pos (by omega), h3, List.getD_cons_succ]
    · rw [if_neg h1]
      by_cases h4 : c = a
      · subst h4
        rw [if_pos rfl, if_pos (by omega), Nat.sub_self, List.getD_cons_zero]
      · rw [if_neg h4, if_neg (by omega)]

theorem NMap.get_below {α : Type} (d : α) (m : NMap α) (k : Nat) (h : ∀ p ∈ m, k < p.1) : NMap.get d m k = d := by
  induction m with
  | nil => rfl
  | cons p r ih =>
    have h1 := h p (.head _)
    exact (if_neg (by omega)).trans (ih fun q hq => h q (.tail _ hq))

/-- Two tables in canonical form that read alike are equal. -/
theorem NMap.wf_ext {α : Type} [DecidableEq α] (d : α) (m n : NMap α) (hm : NMap.wf d m = true) (hn : NMap.wf d n = true)
    (h : ∀ k, NMap.get d m k = NMap.get d n k) : m = n := by
  rw [NMap.wf_iff] at hm hn
  induction m generalizing n with
  | nil =>
    cases n with
    | nil => rfl
    | cons p r =>
      have h1 := h p.1
      exact absurd (h1.trans (if_pos rfl)).symm (hn.2 p (.head _))
  | cons p r ih =>
    cases n with
    | nil =>
      have h1 := (h p.1).symm
      exact absurd (h1.trans (if_pos rfl)).symm (hm.2 p (.head _))
    | cons q u =>
      have pm := List.pairwise_cons.1 hm.1
      have pn := List.pairwise_cons.1 hn.1
      have hp : NMap.get d (p :: r) p.1 = p.2 := if_pos rfl
      have hq : NMap.get d (q :: u) q.1 = q.2 := if_pos rfl
      have e : p.1 = q.1 := by
        rcases Nat.lt_trichotomy p.1 q.1 with l | l | l
        · exact absurd (hp.symm.trans ((h p.1).trans (NMap.get_below d _ _ (by
            intro x hx
            cases hx with
            | head => exact l
            | tail _ hx => exact Nat.lt_trans l (pn.1 x hx))))) (hm.2 p (.head _))
        · exact l
        · exact absurd (hq.symm.trans ((h q.1).symm.trans (NMap.get_below d _ _ (by
            intro x hx
            cases hx with
            | head => exact l
            | tail _ hx => exact Nat.lt_trans l (pm.1 x hx))))) (hn.2 q (.head _))
      have e2 : p = q := Prod.ext e (hp.symm.trans ((h p.1).trans (e ▸ hq)))
      subst e2
      congr 1
      apply ih u ⟨pm.2, fun x hx => hm.2 x (.tail _ hx)⟩ ⟨pn.2, fun x hx => hn.2 x (.tail _ hx)⟩
      intro k
      by_cases hk : p.1 = k
      · subst hk; rw [NMap.get_below d r _ pm.1, NMap.get_below d u _ pn.1]
      · exact ((if_neg hk).symm.trans (h k)).trans (if_neg hk)

/-- Equal memories are equal data. -/
theorem Memory.wf_ext (m n : Memory) (hm : Memory.wf m = true) (hn : Memory.wf n = true)
    (h : ∀ a, Memory.read m a = Memory.read n a) : m = n := NMap.wf_ext _ m n hm hn h

theorem Memory.wf_nil : Memory.wf [] = true := rfl

end Sys2Proof.Machine
end

