-- ==== Sys2Proof/Laws/State.lean ====
section
/-! SUPPORT. Laws of the state: each update of a table entry, field by field; what each table reads after it; the registers of a strand
after a write. -/

namespace Sys2Proof.Machine

/-! ### updStrand -/

@[simp] theorem State.strand_updStrand (s : State) (k : Nat) (f : Strand → Strand) (j : Nat) :
    (s.updStrand k f).strand j = if j = k then f (s.strand k) else s.strand j := by
  simp [State.strand, State.updStrand]
@[simp] theorem State.team_updStrand (s : State) (k : Nat) (f : Strand → Strand) (j : Nat) : (s.updStrand k f).team j = s.team j := rfl
@[simp] theorem State.core_updStrand (s : State) (k : Nat) (f : Strand → Strand) (j : Nat) : (s.updStrand k f).core j = s.core j := rfl
@[simp] theorem State.launch_updStrand (s : State) (k : Nat) (f : Strand → Strand) (j : Nat) : (s.updStrand k f).launch j = s.launch j := rfl
@[simp] theorem State.queue_updStrand (s : State) (k : Nat) (f : Strand → Strand) (j : Nat) : (s.updStrand k f).queue j = s.queue j := rfl
@[simp] theorem State.stream_updStrand (s : State) (k : Nat) (f : Strand → Strand) (j : Nat) : (s.updStrand k f).stream j = s.stream j := rfl
@[simp] theorem State.course_updStrand (s : State) (k : Nat) (f : Strand → Strand) (j : Nat) : (s.updStrand k f).course j = s.course j := rfl
@[simp] theorem State.cluster_updStrand (s : State) (k : Nat) (f : Strand → Strand) (j : Nat) : (s.updStrand k f).cluster j = s.cluster j := rfl
@[simp] theorem State.port_updStrand (s : State) (k : Nat) (f : Strand → Strand) (j : Nat) : (s.updStrand k f).port j = s.port j := rfl
@[simp] theorem State.updStrand_updStrand (s : State) (k : Nat) (f g : Strand → Strand) :
    (s.updStrand k f).updStrand k g = s.updStrand k (fun x => g (f x)) := by
  simp [State.updStrand]
section
variable (s : State) (k : Nat) (f : Strand → Strand)
@[simp] theorem State.updStrand_cycle_field : (s.updStrand k f).cycle = s.cycle := rfl
@[simp] theorem State.updStrand_teams_field : (s.updStrand k f).teams = s.teams := rfl
@[simp] theorem State.updStrand_cores_field : (s.updStrand k f).cores = s.cores := rfl
@[simp] theorem State.updStrand_launches_field : (s.updStrand k f).launches = s.launches := rfl
@[simp] theorem State.updStrand_mem_field : (s.updStrand k f).mem = s.mem := rfl
@[simp] theorem State.updStrand_log_field : (s.updStrand k f).log = s.log := rfl
@[simp] theorem State.updStrand_tlb_field : (s.updStrand k f).tlb = s.tlb := rfl
@[simp] theorem State.updStrand_walks_field : (s.updStrand k f).walks = s.walks := rfl
@[simp] theorem State.updStrand_cache_field : (s.updStrand k f).cache = s.cache := rfl
@[simp] theorem State.updStrand_asidBase_field : (s.updStrand k f).asidBase = s.asidBase := rfl
@[simp] theorem State.updStrand_freeHead_field : (s.updStrand k f).freeHead = s.freeHead := rfl
@[simp] theorem State.updStrand_free_field : (s.updStrand k f).free = s.free := rfl
@[simp] theorem State.updStrand_lowmark_field : (s.updStrand k f).lowmark = s.lowmark := rfl
@[simp] theorem State.updStrand_mapCount_field : (s.updStrand k f).mapCount = s.mapCount := rfl
@[simp] theorem State.updStrand_pfxBase_field : (s.updStrand k f).pfxBase = s.pfxBase := rfl
@[simp] theorem State.updStrand_pfx_field : (s.updStrand k f).pfx = s.pfx := rfl
@[simp] theorem State.updStrand_seeds_field : (s.updStrand k f).seeds = s.seeds := rfl
@[simp] theorem State.updStrand_books_field : (s.updStrand k f).books = s.books := rfl
@[simp] theorem State.updStrand_pcieOut_field : (s.updStrand k f).pcieOut = s.pcieOut := rfl
@[simp] theorem State.updStrand_queues_field : (s.updStrand k f).queues = s.queues := rfl
@[simp] theorem State.updStrand_tasks_field : (s.updStrand k f).tasks = s.tasks := rfl
@[simp] theorem State.updStrand_versions_field : (s.updStrand k f).versions = s.versions := rfl
@[simp] theorem State.updStrand_qcwSusp_field : (s.updStrand k f).qcwSusp = s.qcwSusp := rfl
@[simp] theorem State.updStrand_qcwRank_field : (s.updStrand k f).qcwRank = s.qcwRank := rfl
@[simp] theorem State.updStrand_nextLid_field : (s.updStrand k f).nextLid = s.nextLid := rfl
@[simp] theorem State.updStrand_nextLh_field : (s.updStrand k f).nextLh = s.nextLh := rfl
@[simp] theorem State.updStrand_nextSeq_field : (s.updStrand k f).nextSeq = s.nextSeq := rfl
@[simp] theorem State.updStrand_nextCmd_field : (s.updStrand k f).nextCmd = s.nextCmd := rfl
@[simp] theorem State.updStrand_lastSel_field : (s.updStrand k f).lastSel = s.lastSel := rfl
@[simp] theorem State.updStrand_stagel_field : (s.updStrand k f).stagel = s.stagel := rfl
@[simp] theorem State.updStrand_resvl_field : (s.updStrand k f).resvl = s.resvl := rfl
@[simp] theorem State.updStrand_cap_field : (s.updStrand k f).cap = s.cap := rfl
@[simp] theorem State.updStrand_streams_field : (s.updStrand k f).streams = s.streams := rfl
@[simp] theorem State.updStrand_encDropped_field : (s.updStrand k f).encDropped = s.encDropped := rfl
@[simp] theorem State.updStrand_mbxDrop_field : (s.updStrand k f).mbxDrop = s.mbxDrop := rfl
@[simp] theorem State.updStrand_fltBase_field : (s.updStrand k f).fltBase = s.fltBase := rfl
@[simp] theorem State.updStrand_fltLog2n_field : (s.updStrand k f).fltLog2n = s.fltLog2n := rfl
@[simp] theorem State.updStrand_fltHead_field : (s.updStrand k f).fltHead = s.fltHead := rfl
@[simp] theorem State.updStrand_fltTail_field : (s.updStrand k f).fltTail = s.fltTail := rfl
@[simp] theorem State.updStrand_fltLost_field : (s.updStrand k f).fltLost = s.fltLost := rfl
@[simp] theorem State.updStrand_fltHold_field : (s.updStrand k f).fltHold = s.fltHold := rfl
@[simp] theorem State.updStrand_fltSeq_field : (s.updStrand k f).fltSeq = s.fltSeq := rfl
@[simp] theorem State.updStrand_ksQueue_field : (s.updStrand k f).ksQueue = s.ksQueue := rfl
@[simp] theorem State.updStrand_ctxBase_field : (s.updStrand k f).ctxBase = s.ctxBase := rfl
@[simp] theorem State.updStrand_ctxN_field : (s.updStrand k f).ctxN = s.ctxN := rfl
@[simp] theorem State.updStrand_epoch_field : (s.updStrand k f).epoch = s.epoch := rfl
@[simp] theorem State.updStrand_rcState_field : (s.updStrand k f).rcState = s.rcState := rfl
@[simp] theorem State.updStrand_pendMap_field : (s.updStrand k f).pendMap = s.pendMap := rfl
@[simp] theorem State.updStrand_roleMap_field : (s.updStrand k f).roleMap = s.roleMap := rfl
@[simp] theorem State.updStrand_cls_field : (s.updStrand k f).cls = s.cls := rfl
@[simp] theorem State.updStrand_rcSkipTest_field : (s.updStrand k f).rcSkipTest = s.rcSkipTest := rfl
@[simp] theorem State.updStrand_rcDry_field : (s.updStrand k f).rcDry = s.rcDry := rfl
@[simp] theorem State.updStrand_rcStrand_field : (s.updStrand k f).rcStrand = s.rcStrand := rfl
@[simp] theorem State.updStrand_held_field : (s.updStrand k f).held = s.held := rfl
@[simp] theorem State.updStrand_hotth_field : (s.updStrand k f).hotth = s.hotth := rfl
@[simp] theorem State.updStrand_hyst_field : (s.updStrand k f).hyst = s.hyst := rfl
@[simp] theorem State.updStrand_marginC_field : (s.updStrand k f).marginC = s.marginC := rfl
@[simp] theorem State.updStrand_dwell_field : (s.updStrand k f).dwell = s.dwell := rfl
@[simp] theorem State.updStrand_pmin_field : (s.updStrand k f).pmin = s.pmin := rfl
@[simp] theorem State.updStrand_courses_field : (s.updStrand k f).courses = s.courses := rfl
@[simp] theorem State.updStrand_clusters_field : (s.updStrand k f).clusters = s.clusters := rfl
@[simp] theorem State.updStrand_b2asid_field : (s.updStrand k f).b2asid = s.b2asid := rfl
@[simp] theorem State.updStrand_b2vb_field : (s.updStrand k f).b2vb = s.b2vb := rfl
@[simp] theorem State.updStrand_b2en_field : (s.updStrand k f).b2en = s.b2en := rfl
@[simp] theorem State.updStrand_b2size_field : (s.updStrand k f).b2size = s.b2size := rfl
@[simp] theorem State.updStrand_b2errN_field : (s.updStrand k f).b2errN = s.b2errN := rfl
@[simp] theorem State.updStrand_b2errVa_field : (s.updStrand k f).b2errVa = s.b2errVa := rfl
@[simp] theorem State.updStrand_hostOut_field : (s.updStrand k f).hostOut = s.hostOut := rfl
@[simp] theorem State.updStrand_msixAddr_field : (s.updStrand k f).msixAddr = s.msixAddr := rfl
@[simp] theorem State.updStrand_msixData_field : (s.updStrand k f).msixData = s.msixData := rfl
@[simp] theorem State.updStrand_msixOn_field : (s.updStrand k f).msixOn = s.msixOn := rfl
@[simp] theorem State.updStrand_msixPend_field : (s.updStrand k f).msixPend = s.msixPend := rfl
@[simp] theorem State.updStrand_msixOut_field : (s.updStrand k f).msixOut = s.msixOut := rfl
@[simp] theorem State.updStrand_ports_field : (s.updStrand k f).ports = s.ports := rfl
@[simp] theorem State.updStrand_ringCmds_field : (s.updStrand k f).ringCmds = s.ringCmds := rfl
@[simp] theorem State.updStrand_flash_field : (s.updStrand k f).flash = s.flash := rfl
@[simp] theorem State.updStrand_boot_field : (s.updStrand k f).boot = s.boot := rfl
@[simp] theorem State.updStrand_ecc_field : (s.updStrand k f).ecc = s.ecc := rfl
@[simp] theorem State.updStrand_rthb_field : (s.updStrand k f).rthb = s.rthb := rfl
@[simp] theorem State.updStrand_spdm_field : (s.updStrand k f).spdm = s.spdm := rfl
@[simp] theorem State.updStrand_ide_field : (s.updStrand k f).ide = s.ide := rfl
@[simp] theorem State.updStrand_cur_field : (s.updStrand k f).cur = s.cur := rfl
@[simp] theorem State.updStrand_agenda_field : (s.updStrand k f).agenda = s.agenda := rfl
@[simp] theorem State.updStrand_iss_field : (s.updStrand k f).iss = s.iss := rfl
@[simp] theorem State.updStrand_freeN_field : (s.updStrand k f).freeN = s.freeN := rfl
end

/-! ### updTeam -/

@[simp] theorem State.team_updTeam (s : State) (t : Nat) (f : Team → Team) (j : Nat) :
    (s.updTeam t f).team j = if j = t then f (s.team t) else s.team j := by
  simp [State.team, State.updTeam]
@[simp] theorem State.strand_updTeam (s : State) (t : Nat) (f : Team → Team) (j : Nat) : (s.updTeam t f).strand j = s.strand j := rfl
@[simp] theorem State.core_updTeam (s : State) (t : Nat) (f : Team → Team) (j : Nat) : (s.updTeam t f).core j = s.core j := rfl
@[simp] theorem State.launch_updTeam (s : State) (t : Nat) (f : Team → Team) (j : Nat) : (s.updTeam t f).launch j = s.launch j := rfl
@[simp] theorem State.queue_updTeam (s : State) (t : Nat) (f : Team → Team) (j : Nat) : (s.updTeam t f).queue j = s.queue j := rfl
@[simp] theorem State.stream_updTeam (s : State) (t : Nat) (f : Team → Team) (j : Nat) : (s.updTeam t f).stream j = s.stream j := rfl
@[simp] theorem State.course_updTeam (s : State) (t : Nat) (f : Team → Team) (j : Nat) : (s.updTeam t f).course j = s.course j := rfl
@[simp] theorem State.cluster_updTeam (s : State) (t : Nat) (f : Team → Team) (j : Nat) : (s.updTeam t f).cluster j = s.cluster j := rfl
@[simp] theorem State.port_updTeam (s : State) (t : Nat) (f : Team → Team) (j : Nat) : (s.updTeam t f).port j = s.port j := rfl
@[simp] theorem State.updTeam_updTeam (s : State) (t : Nat) (f g : Team → Team) :
    (s.updTeam t f).updTeam t g = s.updTeam t (fun x => g (f x)) := by
  simp [State.updTeam]
section
variable (s : State) (t : Nat) (f : Team → Team)
@[simp] theorem State.updTeam_cycle_field : (s.updTeam t f).cycle = s.cycle := rfl
@[simp] theorem State.updTeam_strands_field : (s.updTeam t f).strands = s.strands := rfl
@[simp] theorem State.updTeam_cores_field : (s.updTeam t f).cores = s.cores := rfl
@[simp] theorem State.updTeam_launches_field : (s.updTeam t f).launches = s.launches := rfl
@[simp] theorem State.updTeam_mem_field : (s.updTeam t f).mem = s.mem := rfl
@[simp] theorem State.updTeam_log_field : (s.updTeam t f).log = s.log := rfl
@[simp] theorem State.updTeam_tlb_field : (s.updTeam t f).tlb = s.tlb := rfl
@[simp] theorem State.updTeam_walks_field : (s.updTeam t f).walks = s.walks := rfl
@[simp] theorem State.updTeam_cache_field : (s.updTeam t f).cache = s.cache := rfl
@[simp] theorem State.updTeam_asidBase_field : (s.updTeam t f).asidBase = s.asidBase := rfl
@[simp] theorem State.updTeam_freeHead_field : (s.updTeam t f).freeHead = s.freeHead := rfl
@[simp] theorem State.updTeam_free_field : (s.updTeam t f).free = s.free := rfl
@[simp] theorem State.updTeam_lowmark_field : (s.updTeam t f).lowmark = s.lowmark := rfl
@[simp] theorem State.updTeam_mapCount_field : (s.updTeam t f).mapCount = s.mapCount := rfl
@[simp] theorem State.updTeam_pfxBase_field : (s.updTeam t f).pfxBase = s.pfxBase := rfl
@[simp] theorem State.updTeam_pfx_field : (s.updTeam t f).pfx = s.pfx := rfl
@[simp] theorem State.updTeam_seeds_field : (s.updTeam t f).seeds = s.seeds := rfl
@[simp] theorem State.updTeam_books_field : (s.updTeam t f).books = s.books := rfl
@[simp] theorem State.updTeam_pcieOut_field : (s.updTeam t f).pcieOut = s.pcieOut := rfl
@[simp] theorem State.updTeam_queues_field : (s.updTeam t f).queues = s.queues := rfl
@[simp] theorem State.updTeam_tasks_field : (s.updTeam t f).tasks = s.tasks := rfl
@[simp] theorem State.updTeam_versions_field : (s.updTeam t f).versions = s.versions := rfl
@[simp] theorem State.updTeam_qcwSusp_field : (s.updTeam t f).qcwSusp = s.qcwSusp := rfl
@[simp] theorem State.updTeam_qcwRank_field : (s.updTeam t f).qcwRank = s.qcwRank := rfl
@[simp] theorem State.updTeam_nextLid_field : (s.updTeam t f).nextLid = s.nextLid := rfl
@[simp] theorem State.updTeam_nextLh_field : (s.updTeam t f).nextLh = s.nextLh := rfl
@[simp] theorem State.updTeam_nextSeq_field : (s.updTeam t f).nextSeq = s.nextSeq := rfl
@[simp] theorem State.updTeam_nextCmd_field : (s.updTeam t f).nextCmd = s.nextCmd := rfl
@[simp] theorem State.updTeam_lastSel_field : (s.updTeam t f).lastSel = s.lastSel := rfl
@[simp] theorem State.updTeam_stagel_field : (s.updTeam t f).stagel = s.stagel := rfl
@[simp] theorem State.updTeam_resvl_field : (s.updTeam t f).resvl = s.resvl := rfl
@[simp] theorem State.updTeam_cap_field : (s.updTeam t f).cap = s.cap := rfl
@[simp] theorem State.updTeam_streams_field : (s.updTeam t f).streams = s.streams := rfl
@[simp] theorem State.updTeam_encDropped_field : (s.updTeam t f).encDropped = s.encDropped := rfl
@[simp] theorem State.updTeam_mbxDrop_field : (s.updTeam t f).mbxDrop = s.mbxDrop := rfl
@[simp] theorem State.updTeam_fltBase_field : (s.updTeam t f).fltBase = s.fltBase := rfl
@[simp] theorem State.updTeam_fltLog2n_field : (s.updTeam t f).fltLog2n = s.fltLog2n := rfl
@[simp] theorem State.updTeam_fltHead_field : (s.updTeam t f).fltHead = s.fltHead := rfl
@[simp] theorem State.updTeam_fltTail_field : (s.updTeam t f).fltTail = s.fltTail := rfl
@[simp] theorem State.updTeam_fltLost_field : (s.updTeam t f).fltLost = s.fltLost := rfl
@[simp] theorem State.updTeam_fltHold_field : (s.updTeam t f).fltHold = s.fltHold := rfl
@[simp] theorem State.updTeam_fltSeq_field : (s.updTeam t f).fltSeq = s.fltSeq := rfl
@[simp] theorem State.updTeam_ksQueue_field : (s.updTeam t f).ksQueue = s.ksQueue := rfl
@[simp] theorem State.updTeam_ctxBase_field : (s.updTeam t f).ctxBase = s.ctxBase := rfl
@[simp] theorem State.updTeam_ctxN_field : (s.updTeam t f).ctxN = s.ctxN := rfl
@[simp] theorem State.updTeam_epoch_field : (s.updTeam t f).epoch = s.epoch := rfl
@[simp] theorem State.updTeam_rcState_field : (s.updTeam t f).rcState = s.rcState := rfl
@[simp] theorem State.updTeam_pendMap_field : (s.updTeam t f).pendMap = s.pendMap := rfl
@[simp] theorem State.updTeam_roleMap_field : (s.updTeam t f).roleMap = s.roleMap := rfl
@[simp] theorem State.updTeam_cls_field : (s.updTeam t f).cls = s.cls := rfl
@[simp] theorem State.updTeam_rcSkipTest_field : (s.updTeam t f).rcSkipTest = s.rcSkipTest := rfl
@[simp] theorem State.updTeam_rcDry_field : (s.updTeam t f).rcDry = s.rcDry := rfl
@[simp] theorem State.updTeam_rcStrand_field : (s.updTeam t f).rcStrand = s.rcStrand := rfl
@[simp] theorem State.updTeam_held_field : (s.updTeam t f).held = s.held := rfl
@[simp] theorem State.updTeam_hotth_field : (s.updTeam t f).hotth = s.hotth := rfl
@[simp] theorem State.updTeam_hyst_field : (s.updTeam t f).hyst = s.hyst := rfl
@[simp] theorem State.updTeam_marginC_field : (s.updTeam t f).marginC = s.marginC := rfl
@[simp] theorem State.updTeam_dwell_field : (s.updTeam t f).dwell = s.dwell := rfl
@[simp] theorem State.updTeam_pmin_field : (s.updTeam t f).pmin = s.pmin := rfl
@[simp] theorem State.updTeam_courses_field : (s.updTeam t f).courses = s.courses := rfl
@[simp] theorem State.updTeam_clusters_field : (s.updTeam t f).clusters = s.clusters := rfl
@[simp] theorem State.updTeam_b2asid_field : (s.updTeam t f).b2asid = s.b2asid := rfl
@[simp] theorem State.updTeam_b2vb_field : (s.updTeam t f).b2vb = s.b2vb := rfl
@[simp] theorem State.updTeam_b2en_field : (s.updTeam t f).b2en = s.b2en := rfl
@[simp] theorem State.updTeam_b2size_field : (s.updTeam t f).b2size = s.b2size := rfl
@[simp] theorem State.updTeam_b2errN_field : (s.updTeam t f).b2errN = s.b2errN := rfl
@[simp] theorem State.updTeam_b2errVa_field : (s.updTeam t f).b2errVa = s.b2errVa := rfl
@[simp] theorem State.updTeam_hostOut_field : (s.updTeam t f).hostOut = s.hostOut := rfl
@[simp] theorem State.updTeam_msixAddr_field : (s.updTeam t f).msixAddr = s.msixAddr := rfl
@[simp] theorem State.updTeam_msixData_field : (s.updTeam t f).msixData = s.msixData := rfl
@[simp] theorem State.updTeam_msixOn_field : (s.updTeam t f).msixOn = s.msixOn := rfl
@[simp] theorem State.updTeam_msixPend_field : (s.updTeam t f).msixPend = s.msixPend := rfl
@[simp] theorem State.updTeam_msixOut_field : (s.updTeam t f).msixOut = s.msixOut := rfl
@[simp] theorem State.updTeam_ports_field : (s.updTeam t f).ports = s.ports := rfl
@[simp] theorem State.updTeam_ringCmds_field : (s.updTeam t f).ringCmds = s.ringCmds := rfl
@[simp] theorem State.updTeam_flash_field : (s.updTeam t f).flash = s.flash := rfl
@[simp] theorem State.updTeam_boot_field : (s.updTeam t f).boot = s.boot := rfl
@[simp] theorem State.updTeam_ecc_field : (s.updTeam t f).ecc = s.ecc := rfl
@[simp] theorem State.updTeam_rthb_field : (s.updTeam t f).rthb = s.rthb := rfl
@[simp] theorem State.updTeam_spdm_field : (s.updTeam t f).spdm = s.spdm := rfl
@[simp] theorem State.updTeam_ide_field : (s.updTeam t f).ide = s.ide := rfl
@[simp] theorem State.updTeam_cur_field : (s.updTeam t f).cur = s.cur := rfl
@[simp] theorem State.updTeam_agenda_field : (s.updTeam t f).agenda = s.agenda := rfl
@[simp] theorem State.updTeam_iss_field : (s.updTeam t f).iss = s.iss := rfl
@[simp] theorem State.updTeam_freeN_field : (s.updTeam t f).freeN = s.freeN := rfl
end

/-! ### updCore -/

@[simp] theorem State.core_updCore (s : State) (c : Nat) (f : Core → Core) (j : Nat) :
    (s.updCore c f).core j = if j = c then f (s.core c) else s.core j := by
  simp [State.core, State.updCore]
@[simp] theorem State.strand_updCore (s : State) (c : Nat) (f : Core → Core) (j : Nat) : (s.updCore c f).strand j = s.strand j := rfl
@[simp] theorem State.team_updCore (s : State) (c : Nat) (f : Core → Core) (j : Nat) : (s.updCore c f).team j = s.team j := rfl
@[simp] theorem State.launch_updCore (s : State) (c : Nat) (f : Core → Core) (j : Nat) : (s.updCore c f).launch j = s.launch j := rfl
@[simp] theorem State.queue_updCore (s : State) (c : Nat) (f : Core → Core) (j : Nat) : (s.updCore c f).queue j = s.queue j := rfl
@[simp] theorem State.stream_updCore (s : State) (c : Nat) (f : Core → Core) (j : Nat) : (s.updCore c f).stream j = s.stream j := rfl
@[simp] theorem State.course_updCore (s : State) (c : Nat) (f : Core → Core) (j : Nat) : (s.updCore c f).course j = s.course j := rfl
@[simp] theorem State.cluster_updCore (s : State) (c : Nat) (f : Core → Core) (j : Nat) : (s.updCore c f).cluster j = s.cluster j := rfl
@[simp] theorem State.port_updCore (s : State) (c : Nat) (f : Core → Core) (j : Nat) : (s.updCore c f).port j = s.port j := rfl
@[simp] theorem State.updCore_updCore (s : State) (c : Nat) (f g : Core → Core) :
    (s.updCore c f).updCore c g = s.updCore c (fun x => g (f x)) := by
  simp [State.updCore]
section
variable (s : State) (c : Nat) (f : Core → Core)
@[simp] theorem State.updCore_cycle_field : (s.updCore c f).cycle = s.cycle := rfl
@[simp] theorem State.updCore_strands_field : (s.updCore c f).strands = s.strands := rfl
@[simp] theorem State.updCore_teams_field : (s.updCore c f).teams = s.teams := rfl
@[simp] theorem State.updCore_launches_field : (s.updCore c f).launches = s.launches := rfl
@[simp] theorem State.updCore_mem_field : (s.updCore c f).mem = s.mem := rfl
@[simp] theorem State.updCore_log_field : (s.updCore c f).log = s.log := rfl
@[simp] theorem State.updCore_tlb_field : (s.updCore c f).tlb = s.tlb := rfl
@[simp] theorem State.updCore_walks_field : (s.updCore c f).walks = s.walks := rfl
@[simp] theorem State.updCore_cache_field : (s.updCore c f).cache = s.cache := rfl
@[simp] theorem State.updCore_asidBase_field : (s.updCore c f).asidBase = s.asidBase := rfl
@[simp] theorem State.updCore_freeHead_field : (s.updCore c f).freeHead = s.freeHead := rfl
@[simp] theorem State.updCore_free_field : (s.updCore c f).free = s.free := rfl
@[simp] theorem State.updCore_lowmark_field : (s.updCore c f).lowmark = s.lowmark := rfl
@[simp] theorem State.updCore_mapCount_field : (s.updCore c f).mapCount = s.mapCount := rfl
@[simp] theorem State.updCore_pfxBase_field : (s.updCore c f).pfxBase = s.pfxBase := rfl
@[simp] theorem State.updCore_pfx_field : (s.updCore c f).pfx = s.pfx := rfl
@[simp] theorem State.updCore_seeds_field : (s.updCore c f).seeds = s.seeds := rfl
@[simp] theorem State.updCore_books_field : (s.updCore c f).books = s.books := rfl
@[simp] theorem State.updCore_pcieOut_field : (s.updCore c f).pcieOut = s.pcieOut := rfl
@[simp] theorem State.updCore_queues_field : (s.updCore c f).queues = s.queues := rfl
@[simp] theorem State.updCore_tasks_field : (s.updCore c f).tasks = s.tasks := rfl
@[simp] theorem State.updCore_versions_field : (s.updCore c f).versions = s.versions := rfl
@[simp] theorem State.updCore_qcwSusp_field : (s.updCore c f).qcwSusp = s.qcwSusp := rfl
@[simp] theorem State.updCore_qcwRank_field : (s.updCore c f).qcwRank = s.qcwRank := rfl
@[simp] theorem State.updCore_nextLid_field : (s.updCore c f).nextLid = s.nextLid := rfl
@[simp] theorem State.updCore_nextLh_field : (s.updCore c f).nextLh = s.nextLh := rfl
@[simp] theorem State.updCore_nextSeq_field : (s.updCore c f).nextSeq = s.nextSeq := rfl
@[simp] theorem State.updCore_nextCmd_field : (s.updCore c f).nextCmd = s.nextCmd := rfl
@[simp] theorem State.updCore_lastSel_field : (s.updCore c f).lastSel = s.lastSel := rfl
@[simp] theorem State.updCore_stagel_field : (s.updCore c f).stagel = s.stagel := rfl
@[simp] theorem State.updCore_resvl_field : (s.updCore c f).resvl = s.resvl := rfl
@[simp] theorem State.updCore_cap_field : (s.updCore c f).cap = s.cap := rfl
@[simp] theorem State.updCore_streams_field : (s.updCore c f).streams = s.streams := rfl
@[simp] theorem State.updCore_encDropped_field : (s.updCore c f).encDropped = s.encDropped := rfl
@[simp] theorem State.updCore_mbxDrop_field : (s.updCore c f).mbxDrop = s.mbxDrop := rfl
@[simp] theorem State.updCore_fltBase_field : (s.updCore c f).fltBase = s.fltBase := rfl
@[simp] theorem State.updCore_fltLog2n_field : (s.updCore c f).fltLog2n = s.fltLog2n := rfl
@[simp] theorem State.updCore_fltHead_field : (s.updCore c f).fltHead = s.fltHead := rfl
@[simp] theorem State.updCore_fltTail_field : (s.updCore c f).fltTail = s.fltTail := rfl
@[simp] theorem State.updCore_fltLost_field : (s.updCore c f).fltLost = s.fltLost := rfl
@[simp] theorem State.updCore_fltHold_field : (s.updCore c f).fltHold = s.fltHold := rfl
@[simp] theorem State.updCore_fltSeq_field : (s.updCore c f).fltSeq = s.fltSeq := rfl
@[simp] theorem State.updCore_ksQueue_field : (s.updCore c f).ksQueue = s.ksQueue := rfl
@[simp] theorem State.updCore_ctxBase_field : (s.updCore c f).ctxBase = s.ctxBase := rfl
@[simp] theorem State.updCore_ctxN_field : (s.updCore c f).ctxN = s.ctxN := rfl
@[simp] theorem State.updCore_epoch_field : (s.updCore c f).epoch = s.epoch := rfl
@[simp] theorem State.updCore_rcState_field : (s.updCore c f).rcState = s.rcState := rfl
@[simp] theorem State.updCore_pendMap_field : (s.updCore c f).pendMap = s.pendMap := rfl
@[simp] theorem State.updCore_roleMap_field : (s.updCore c f).roleMap = s.roleMap := rfl
@[simp] theorem State.updCore_cls_field : (s.updCore c f).cls = s.cls := rfl
@[simp] theorem State.updCore_rcSkipTest_field : (s.updCore c f).rcSkipTest = s.rcSkipTest := rfl
@[simp] theorem State.updCore_rcDry_field : (s.updCore c f).rcDry = s.rcDry := rfl
@[simp] theorem State.updCore_rcStrand_field : (s.updCore c f).rcStrand = s.rcStrand := rfl
@[simp] theorem State.updCore_held_field : (s.updCore c f).held = s.held := rfl
@[simp] theorem State.updCore_hotth_field : (s.updCore c f).hotth = s.hotth := rfl
@[simp] theorem State.updCore_hyst_field : (s.updCore c f).hyst = s.hyst := rfl
@[simp] theorem State.updCore_marginC_field : (s.updCore c f).marginC = s.marginC := rfl
@[simp] theorem State.updCore_dwell_field : (s.updCore c f).dwell = s.dwell := rfl
@[simp] theorem State.updCore_pmin_field : (s.updCore c f).pmin = s.pmin := rfl
@[simp] theorem State.updCore_courses_field : (s.updCore c f).courses = s.courses := rfl
@[simp] theorem State.updCore_clusters_field : (s.updCore c f).clusters = s.clusters := rfl
@[simp] theorem State.updCore_b2asid_field : (s.updCore c f).b2asid = s.b2asid := rfl
@[simp] theorem State.updCore_b2vb_field : (s.updCore c f).b2vb = s.b2vb := rfl
@[simp] theorem State.updCore_b2en_field : (s.updCore c f).b2en = s.b2en := rfl
@[simp] theorem State.updCore_b2size_field : (s.updCore c f).b2size = s.b2size := rfl
@[simp] theorem State.updCore_b2errN_field : (s.updCore c f).b2errN = s.b2errN := rfl
@[simp] theorem State.updCore_b2errVa_field : (s.updCore c f).b2errVa = s.b2errVa := rfl
@[simp] theorem State.updCore_hostOut_field : (s.updCore c f).hostOut = s.hostOut := rfl
@[simp] theorem State.updCore_msixAddr_field : (s.updCore c f).msixAddr = s.msixAddr := rfl
@[simp] theorem State.updCore_msixData_field : (s.updCore c f).msixData = s.msixData := rfl
@[simp] theorem State.updCore_msixOn_field : (s.updCore c f).msixOn = s.msixOn := rfl
@[simp] theorem State.updCore_msixPend_field : (s.updCore c f).msixPend = s.msixPend := rfl
@[simp] theorem State.updCore_msixOut_field : (s.updCore c f).msixOut = s.msixOut := rfl
@[simp] theorem State.updCore_ports_field : (s.updCore c f).ports = s.ports := rfl
@[simp] theorem State.updCore_ringCmds_field : (s.updCore c f).ringCmds = s.ringCmds := rfl
@[simp] theorem State.updCore_flash_field : (s.updCore c f).flash = s.flash := rfl
@[simp] theorem State.updCore_boot_field : (s.updCore c f).boot = s.boot := rfl
@[simp] theorem State.updCore_ecc_field : (s.updCore c f).ecc = s.ecc := rfl
@[simp] theorem State.updCore_rthb_field : (s.updCore c f).rthb = s.rthb := rfl
@[simp] theorem State.updCore_spdm_field : (s.updCore c f).spdm = s.spdm := rfl
@[simp] theorem State.updCore_ide_field : (s.updCore c f).ide = s.ide := rfl
@[simp] theorem State.updCore_cur_field : (s.updCore c f).cur = s.cur := rfl
@[simp] theorem State.updCore_agenda_field : (s.updCore c f).agenda = s.agenda := rfl
@[simp] theorem State.updCore_iss_field : (s.updCore c f).iss = s.iss := rfl
@[simp] theorem State.updCore_freeN_field : (s.updCore c f).freeN = s.freeN := rfl
end

/-! ### updLaunch -/

@[simp] theorem State.launch_updLaunch (s : State) (l : Nat) (f : Launch → Launch) (j : Nat) :
    (s.updLaunch l f).launch j = if j = l then f (s.launch l) else s.launch j := by
  simp [State.launch, State.updLaunch]
@[simp] theorem State.strand_updLaunch (s : State) (l : Nat) (f : Launch → Launch) (j : Nat) : (s.updLaunch l f).strand j = s.strand j := rfl
@[simp] theorem State.team_updLaunch (s : State) (l : Nat) (f : Launch → Launch) (j : Nat) : (s.updLaunch l f).team j = s.team j := rfl
@[simp] theorem State.core_updLaunch (s : State) (l : Nat) (f : Launch → Launch) (j : Nat) : (s.updLaunch l f).core j = s.core j := rfl
@[simp] theorem State.queue_updLaunch (s : State) (l : Nat) (f : Launch → Launch) (j : Nat) : (s.updLaunch l f).queue j = s.queue j := rfl
@[simp] theorem State.stream_updLaunch (s : State) (l : Nat) (f : Launch → Launch) (j : Nat) : (s.updLaunch l f).stream j = s.stream j := rfl
@[simp] theorem State.course_updLaunch (s : State) (l : Nat) (f : Launch → Launch) (j : Nat) : (s.updLaunch l f).course j = s.course j := rfl
@[simp] theorem State.cluster_updLaunch (s : State) (l : Nat) (f : Launch → Launch) (j : Nat) : (s.updLaunch l f).cluster j = s.cluster j := rfl
@[simp] theorem State.port_updLaunch (s : State) (l : Nat) (f : Launch → Launch) (j : Nat) : (s.updLaunch l f).port j = s.port j := rfl
@[simp] theorem State.updLaunch_updLaunch (s : State) (l : Nat) (f g : Launch → Launch) :
    (s.updLaunch l f).updLaunch l g = s.updLaunch l (fun x => g (f x)) := by
  simp [State.updLaunch]
section
variable (s : State) (l : Nat) (f : Launch → Launch)
@[simp] theorem State.updLaunch_cycle_field : (s.updLaunch l f).cycle = s.cycle := rfl
@[simp] theorem State.updLaunch_strands_field : (s.updLaunch l f).strands = s.strands := rfl
@[simp] theorem State.updLaunch_teams_field : (s.updLaunch l f).teams = s.teams := rfl
@[simp] theorem State.updLaunch_cores_field : (s.updLaunch l f).cores = s.cores := rfl
@[simp] theorem State.updLaunch_mem_field : (s.updLaunch l f).mem = s.mem := rfl
@[simp] theorem State.updLaunch_log_field : (s.updLaunch l f).log = s.log := rfl
@[simp] theorem State.updLaunch_tlb_field : (s.updLaunch l f).tlb = s.tlb := rfl
@[simp] theorem State.updLaunch_walks_field : (s.updLaunch l f).walks = s.walks := rfl
@[simp] theorem State.updLaunch_cache_field : (s.updLaunch l f).cache = s.cache := rfl
@[simp] theorem State.updLaunch_queues_field : (s.updLaunch l f).queues = s.queues := rfl
@[simp] theorem State.updLaunch_streams_field : (s.updLaunch l f).streams = s.streams := rfl
@[simp] theorem State.updLaunch_courses_field : (s.updLaunch l f).courses = s.courses := rfl
@[simp] theorem State.updLaunch_clusters_field : (s.updLaunch l f).clusters = s.clusters := rfl
@[simp] theorem State.updLaunch_ports_field : (s.updLaunch l f).ports = s.ports := rfl
@[simp] theorem State.updLaunch_fltHold_field : (s.updLaunch l f).fltHold = s.fltHold := rfl
@[simp] theorem State.updLaunch_ksQueue_field : (s.updLaunch l f).ksQueue = s.ksQueue := rfl
@[simp] theorem State.updLaunch_pcieOut_field : (s.updLaunch l f).pcieOut = s.pcieOut := rfl
@[simp] theorem State.updLaunch_hostOut_field : (s.updLaunch l f).hostOut = s.hostOut := rfl
@[simp] theorem State.updLaunch_msixOut_field : (s.updLaunch l f).msixOut = s.msixOut := rfl
@[simp] theorem State.updLaunch_boot_field : (s.updLaunch l f).boot = s.boot := rfl
@[simp] theorem State.updLaunch_flash_field : (s.updLaunch l f).flash = s.flash := rfl
@[simp] theorem State.updLaunch_held_field : (s.updLaunch l f).held = s.held := rfl
@[simp] theorem State.updLaunch_cur_field : (s.updLaunch l f).cur = s.cur := rfl
@[simp] theorem State.updLaunch_agenda_field : (s.updLaunch l f).agenda = s.agenda := rfl
@[simp] theorem State.updLaunch_iss_field : (s.updLaunch l f).iss = s.iss := rfl
@[simp] theorem State.updLaunch_freeN_field : (s.updLaunch l f).freeN = s.freeN := rfl
end

/-! ### updQueue -/

@[simp] theorem State.queue_updQueue (s : State) (q : Nat) (f : Queue → Queue) (j : Nat) :
    (s.updQueue q f).queue j = if j = q then f (s.queue q) else s.queue j := by
  simp [State.queue, State.updQueue]
@[simp] theorem State.strand_updQueue (s : State) (q : Nat) (f : Queue → Queue) (j : Nat) : (s.updQueue q f).strand j = s.strand j := rfl
@[simp] theorem State.team_updQueue (s : State) (q : Nat) (f : Queue → Queue) (j : Nat) : (s.updQueue q f).team j = s.team j := rfl
@[simp] theorem State.core_updQueue (s : State) (q : Nat) (f : Queue → Queue) (j : Nat) : (s.updQueue q f).core j = s.core j := rfl
@[simp] theorem State.launch_updQueue (s : State) (q : Nat) (f : Queue → Queue) (j : Nat) : (s.updQueue q f).launch j = s.launch j := rfl
@[simp] theorem State.stream_updQueue (s : State) (q : Nat) (f : Queue → Queue) (j : Nat) : (s.updQueue q f).stream j = s.stream j := rfl
@[simp] theorem State.course_updQueue (s : State) (q : Nat) (f : Queue → Queue) (j : Nat) : (s.updQueue q f).course j = s.course j := rfl
@[simp] theorem State.cluster_updQueue (s : State) (q : Nat) (f : Queue → Queue) (j : Nat) : (s.updQueue q f).cluster j = s.cluster j := rfl
@[simp] theorem State.port_updQueue (s : State) (q : Nat) (f : Queue → Queue) (j : Nat) : (s.updQueue q f).port j = s.port j := rfl
@[simp] theorem State.updQueue_updQueue (s : State) (q : Nat) (f g : Queue → Queue) :
    (s.updQueue q f).updQueue q g = s.updQueue q (fun x => g (f x)) := by
  simp [State.updQueue]
section
variable (s : State) (q : Nat) (f : Queue → Queue)
@[simp] theorem State.updQueue_cycle_field : (s.updQueue q f).cycle = s.cycle := rfl
@[simp] theorem State.updQueue_strands_field : (s.updQueue q f).strands = s.strands := rfl
@[simp] theorem State.updQueue_teams_field : (s.updQueue q f).teams = s.teams := rfl
@[simp] theorem State.updQueue_cores_field : (s.updQueue q f).cores = s.cores := rfl
@[simp] theorem State.updQueue_launches_field : (s.updQueue q f).launches = s.launches := rfl
@[simp] theorem State.updQueue_mem_field : (s.updQueue q f).mem = s.mem := rfl
@[simp] theorem State.updQueue_log_field : (s.updQueue q f).log = s.log := rfl
@[simp] theorem State.updQueue_tlb_field : (s.updQueue q f).tlb = s.tlb := rfl
@[simp] theorem State.updQueue_walks_field : (s.updQueue q f).walks = s.walks := rfl
@[simp] theorem State.updQueue_cache_field : (s.updQueue q f).cache = s.cache := rfl
@[simp] theorem State.updQueue_streams_field : (s.updQueue q f).streams = s.streams := rfl
@[simp] theorem State.updQueue_courses_field : (s.updQueue q f).courses = s.courses := rfl
@[simp] theorem State.updQueue_clusters_field : (s.updQueue q f).clusters = s.clusters := rfl
@[simp] theorem State.updQueue_ports_field : (s.updQueue q f).ports = s.ports := rfl
@[simp] theorem State.updQueue_fltHold_field : (s.updQueue q f).fltHold = s.fltHold := rfl
@[simp] theorem State.updQueue_ksQueue_field : (s.updQueue q f).ksQueue = s.ksQueue := rfl
@[simp] theorem State.updQueue_pcieOut_field : (s.updQueue q f).pcieOut = s.pcieOut := rfl
@[simp] theorem State.updQueue_hostOut_field : (s.updQueue q f).hostOut = s.hostOut := rfl
@[simp] theorem State.updQueue_msixOut_field : (s.updQueue q f).msixOut = s.msixOut := rfl
@[simp] theorem State.updQueue_boot_field : (s.updQueue q f).boot = s.boot := rfl
@[simp] theorem State.updQueue_flash_field : (s.updQueue q f).flash = s.flash := rfl
@[simp] theorem State.updQueue_held_field : (s.updQueue q f).held = s.held := rfl
@[simp] theorem State.updQueue_cur_field : (s.updQueue q f).cur = s.cur := rfl
@[simp] theorem State.updQueue_agenda_field : (s.updQueue q f).agenda = s.agenda := rfl
@[simp] theorem State.updQueue_iss_field : (s.updQueue q f).iss = s.iss := rfl
@[simp] theorem State.updQueue_freeN_field : (s.updQueue q f).freeN = s.freeN := rfl
end

/-! ### updStream -/

@[simp] theorem State.stream_updStream (s : State) (n : Nat) (f : Stream → Stream) (j : Nat) :
    (s.updStream n f).stream j = if j = n then f (s.stream n) else s.stream j := by
  simp [State.stream, State.updStream]
@[simp] theorem State.strand_updStream (s : State) (n : Nat) (f : Stream → Stream) (j : Nat) : (s.updStream n f).strand j = s.strand j := rfl
@[simp] theorem State.team_updStream (s : State) (n : Nat) (f : Stream → Stream) (j : Nat) : (s.updStream n f).team j = s.team j := rfl
@[simp] theorem State.core_updStream (s : State) (n : Nat) (f : Stream → Stream) (j : Nat) : (s.updStream n f).core j = s.core j := rfl
@[simp] theorem State.launch_updStream (s : State) (n : Nat) (f : Stream → Stream) (j : Nat) : (s.updStream n f).launch j = s.launch j := rfl
@[simp] theorem State.queue_updStream (s : State) (n : Nat) (f : Stream → Stream) (j : Nat) : (s.updStream n f).queue j = s.queue j := rfl
@[simp] theorem State.course_updStream (s : State) (n : Nat) (f : Stream → Stream) (j : Nat) : (s.updStream n f).course j = s.course j := rfl
@[simp] theorem State.cluster_updStream (s : State) (n : Nat) (f : Stream → Stream) (j : Nat) : (s.updStream n f).cluster j = s.cluster j := rfl
@[simp] theorem State.port_updStream (s : State) (n : Nat) (f : Stream → Stream) (j : Nat) : (s.updStream n f).port j = s.port j := rfl
@[simp] theorem State.updStream_updStream (s : State) (n : Nat) (f g : Stream → Stream) :
    (s.updStream n f).updStream n g = s.updStream n (fun x => g (f x)) := by
  simp [State.updStream]
section
variable (s : State) (n : Nat) (f : Stream → Stream)
@[simp] theorem State.updStream_cycle_field : (s.updStream n f).cycle = s.cycle := rfl
@[simp] theorem State.updStream_strands_field : (s.updStream n f).strands = s.strands := rfl
@[simp] theorem State.updStream_teams_field : (s.updStream n f).teams = s.teams := rfl
@[simp] theorem State.updStream_cores_field : (s.updStream n f).cores = s.cores := rfl
@[simp] theorem State.updStream_launches_field : (s.updStream n f).launches = s.launches := rfl
@[simp] theorem State.updStream_mem_field : (s.updStream n f).mem = s.mem := rfl
@[simp] theorem State.updStream_log_field : (s.updStream n f).log = s.log := rfl
@[simp] theorem State.updStream_tlb_field : (s.updStream n f).tlb = s.tlb := rfl
@[simp] theorem State.updStream_walks_field : (s.updStream n f).walks = s.walks := rfl
@[simp] theorem State.updStream_cache_field : (s.updStream n f).cache = s.cache := rfl
@[simp] theorem State.updStream_queues_field : (s.updStream n f).queues = s.queues := rfl
@[simp] theorem State.updStream_courses_field : (s.updStream n f).courses = s.courses := rfl
@[simp] theorem State.updStream_clusters_field : (s.updStream n f).clusters = s.clusters := rfl
@[simp] theorem State.updStream_ports_field : (s.updStream n f).ports = s.ports := rfl
@[simp] theorem State.updStream_fltHold_field : (s.updStream n f).fltHold = s.fltHold := rfl
@[simp] theorem State.updStream_ksQueue_field : (s.updStream n f).ksQueue = s.ksQueue := rfl
@[simp] theorem State.updStream_pcieOut_field : (s.updStream n f).pcieOut = s.pcieOut := rfl
@[simp] theorem State.updStream_hostOut_field : (s.updStream n f).hostOut = s.hostOut := rfl
@[simp] theorem State.updStream_msixOut_field : (s.updStream n f).msixOut = s.msixOut := rfl
@[simp] theorem State.updStream_boot_field : (s.updStream n f).boot = s.boot := rfl
@[simp] theorem State.updStream_flash_field : (s.updStream n f).flash = s.flash := rfl
@[simp] theorem State.updStream_held_field : (s.updStream n f).held = s.held := rfl
@[simp] theorem State.updStream_cur_field : (s.updStream n f).cur = s.cur := rfl
@[simp] theorem State.updStream_agenda_field : (s.updStream n f).agenda = s.agenda := rfl
@[simp] theorem State.updStream_iss_field : (s.updStream n f).iss = s.iss := rfl
@[simp] theorem State.updStream_freeN_field : (s.updStream n f).freeN = s.freeN := rfl
end

/-! ### updCourse -/

@[simp] theorem State.course_updCourse (s : State) (c : Nat) (f : Course → Course) (j : Nat) :
    (s.updCourse c f).course j = if j = c then f (s.course c) else s.course j := by
  simp [State.course, State.updCourse]
@[simp] theorem State.strand_updCourse (s : State) (c : Nat) (f : Course → Course) (j : Nat) : (s.updCourse c f).strand j = s.strand j := rfl
@[simp] theorem State.team_updCourse (s : State) (c : Nat) (f : Course → Course) (j : Nat) : (s.updCourse c f).team j = s.team j := rfl
@[simp] theorem State.core_updCourse (s : State) (c : Nat) (f : Course → Course) (j : Nat) : (s.updCourse c f).core j = s.core j := rfl
@[simp] theorem State.launch_updCourse (s : State) (c : Nat) (f : Course → Course) (j : Nat) : (s.updCourse c f).launch j = s.launch j := rfl
@[simp] theorem State.queue_updCourse (s : State) (c : Nat) (f : Course → Course) (j : Nat) : (s.updCourse c f).queue j = s.queue j := rfl
@[simp] theorem State.stream_updCourse (s : State) (c : Nat) (f : Course → Course) (j : Nat) : (s.updCourse c f).stream j = s.stream j := rfl
@[simp] theorem State.cluster_updCourse (s : State) (c : Nat) (f : Course → Course) (j : Nat) : (s.updCourse c f).cluster j = s.cluster j := rfl
@[simp] theorem State.port_updCourse (s : State) (c : Nat) (f : Course → Course) (j : Nat) : (s.updCourse c f).port j = s.port j := rfl
@[simp] theorem State.updCourse_updCourse (s : State) (c : Nat) (f g : Course → Course) :
    (s.updCourse c f).updCourse c g = s.updCourse c (fun x => g (f x)) := by
  simp [State.updCourse]
section
variable (s : State) (c : Nat) (f : Course → Course)
@[simp] theorem State.updCourse_cycle_field : (s.updCourse c f).cycle = s.cycle := rfl
@[simp] theorem State.updCourse_strands_field : (s.updCourse c f).strands = s.strands := rfl
@[simp] theorem State.updCourse_teams_field : (s.updCourse c f).teams = s.teams := rfl
@[simp] theorem State.updCourse_cores_field : (s.updCourse c f).cores = s.cores := rfl
@[simp] theorem State.updCourse_launches_field : (s.updCourse c f).launches = s.launches := rfl
@[simp] theorem State.updCourse_mem_field : (s.updCourse c f).mem = s.mem := rfl
@[simp] theorem State.updCourse_log_field : (s.updCourse c f).log = s.log := rfl
@[simp] theorem State.updCourse_tlb_field : (s.updCourse c f).tlb = s.tlb := rfl
@[simp] theorem State.updCourse_walks_field : (s.updCourse c f).walks = s.walks := rfl
@[simp] theorem State.updCourse_cache_field : (s.updCourse c f).cache = s.cache := rfl
@[simp] theorem State.updCourse_queues_field : (s.updCourse c f).queues = s.queues := rfl
@[simp] theorem State.updCourse_streams_field : (s.updCourse c f).streams = s.streams := rfl
@[simp] theorem State.updCourse_clusters_field : (s.updCourse c f).clusters = s.clusters := rfl
@[simp] theorem State.updCourse_ports_field : (s.updCourse c f).ports = s.ports := rfl
@[simp] theorem State.updCourse_fltHold_field : (s.updCourse c f).fltHold = s.fltHold := rfl
@[simp] theorem State.updCourse_ksQueue_field : (s.updCourse c f).ksQueue = s.ksQueue := rfl
@[simp] theorem State.updCourse_pcieOut_field : (s.updCourse c f).pcieOut = s.pcieOut := rfl
@[simp] theorem State.updCourse_hostOut_field : (s.updCourse c f).hostOut = s.hostOut := rfl
@[simp] theorem State.updCourse_msixOut_field : (s.updCourse c f).msixOut = s.msixOut := rfl
@[simp] theorem State.updCourse_boot_field : (s.updCourse c f).boot = s.boot := rfl
@[simp] theorem State.updCourse_flash_field : (s.updCourse c f).flash = s.flash := rfl
@[simp] theorem State.updCourse_held_field : (s.updCourse c f).held = s.held := rfl
@[simp] theorem State.updCourse_cur_field : (s.updCourse c f).cur = s.cur := rfl
@[simp] theorem State.updCourse_agenda_field : (s.updCourse c f).agenda = s.agenda := rfl
@[simp] theorem State.updCourse_iss_field : (s.updCourse c f).iss = s.iss := rfl
@[simp] theorem State.updCourse_freeN_field : (s.updCourse c f).freeN = s.freeN := rfl
end

/-! ### updCluster -/

@[simp] theorem State.cluster_updCluster (s : State) (k : Nat) (f : Cluster → Cluster) (j : Nat) :
    (s.updCluster k f).cluster j = if j = k then f (s.cluster k) else s.cluster j := by
  simp [State.cluster, State.updCluster]
@[simp] theorem State.strand_updCluster (s : State) (k : Nat) (f : Cluster → Cluster) (j : Nat) : (s.updCluster k f).strand j = s.strand j := rfl
@[simp] theorem State.team_updCluster (s : State) (k : Nat) (f : Cluster → Cluster) (j : Nat) : (s.updCluster k f).team j = s.team j := rfl
@[simp] theorem State.core_updCluster (s : State) (k : Nat) (f : Cluster → Cluster) (j : Nat) : (s.updCluster k f).core j = s.core j := rfl
@[simp] theorem State.launch_updCluster (s : State) (k : Nat) (f : Cluster → Cluster) (j : Nat) : (s.updCluster k f).launch j = s.launch j := rfl
@[simp] theorem State.queue_updCluster (s : State) (k : Nat) (f : Cluster → Cluster) (j : Nat) : (s.updCluster k f).queue j = s.queue j := rfl
@[simp] theorem State.stream_updCluster (s : State) (k : Nat) (f : Cluster → Cluster) (j : Nat) : (s.updCluster k f).stream j = s.stream j := rfl
@[simp] theorem State.course_updCluster (s : State) (k : Nat) (f : Cluster → Cluster) (j : Nat) : (s.updCluster k f).course j = s.course j := rfl
@[simp] theorem State.port_updCluster (s : State) (k : Nat) (f : Cluster → Cluster) (j : Nat) : (s.updCluster k f).port j = s.port j := rfl
@[simp] theorem State.updCluster_updCluster (s : State) (k : Nat) (f g : Cluster → Cluster) :
    (s.updCluster k f).updCluster k g = s.updCluster k (fun x => g (f x)) := by
  simp [State.updCluster]
section
variable (s : State) (k : Nat) (f : Cluster → Cluster)
@[simp] theorem State.updCluster_cycle_field : (s.updCluster k f).cycle = s.cycle := rfl
@[simp] theorem State.updCluster_strands_field : (s.updCluster k f).strands = s.strands := rfl
@[simp] theorem State.updCluster_teams_field : (s.updCluster k f).teams = s.teams := rfl
@[simp] theorem State.updCluster_cores_field : (s.updCluster k f).cores = s.cores := rfl
@[simp] theorem State.updCluster_launches_field : (s.updCluster k f).launches = s.launches := rfl
@[simp] theorem State.updCluster_mem_field : (s.updCluster k f).mem = s.mem := rfl
@[simp] theorem State.updCluster_log_field : (s.updCluster k f).log = s.log := rfl
@[simp] theorem State.updCluster_tlb_field : (s.updCluster k f).tlb = s.tlb := rfl
@[simp] theorem State.updCluster_walks_field : (s.updCluster k f).walks = s.walks := rfl
@[simp] theorem State.updCluster_cache_field : (s.updCluster k f).cache = s.cache := rfl
@[simp] theorem State.updCluster_queues_field : (s.updCluster k f).queues = s.queues := rfl
@[simp] theorem State.updCluster_streams_field : (s.updCluster k f).streams = s.streams := rfl
@[simp] theorem State.updCluster_courses_field : (s.updCluster k f).courses = s.courses := rfl
@[simp] theorem State.updCluster_ports_field : (s.updCluster k f).ports = s.ports := rfl
@[simp] theorem State.updCluster_fltHold_field : (s.updCluster k f).fltHold = s.fltHold := rfl
@[simp] theorem State.updCluster_ksQueue_field : (s.updCluster k f).ksQueue = s.ksQueue := rfl
@[simp] theorem State.updCluster_pcieOut_field : (s.updCluster k f).pcieOut = s.pcieOut := rfl
@[simp] theorem State.updCluster_hostOut_field : (s.updCluster k f).hostOut = s.hostOut := rfl
@[simp] theorem State.updCluster_msixOut_field : (s.updCluster k f).msixOut = s.msixOut := rfl
@[simp] theorem State.updCluster_boot_field : (s.updCluster k f).boot = s.boot := rfl
@[simp] theorem State.updCluster_flash_field : (s.updCluster k f).flash = s.flash := rfl
@[simp] theorem State.updCluster_held_field : (s.updCluster k f).held = s.held := rfl
@[simp] theorem State.updCluster_cur_field : (s.updCluster k f).cur = s.cur := rfl
@[simp] theorem State.updCluster_agenda_field : (s.updCluster k f).agenda = s.agenda := rfl
@[simp] theorem State.updCluster_iss_field : (s.updCluster k f).iss = s.iss := rfl
@[simp] theorem State.updCluster_freeN_field : (s.updCluster k f).freeN = s.freeN := rfl
end

/-! ### updPort -/

@[simp] theorem State.port_updPort (s : State) (p : Nat) (f : Port → Port) (j : Nat) :
    (s.updPort p f).port j = if j = p then f (s.port p) else s.port j := by
  simp [State.port, State.updPort]
@[simp] theorem State.strand_updPort (s : State) (p : Nat) (f : Port → Port) (j : Nat) : (s.updPort p f).strand j = s.strand j := rfl
@[simp] theorem State.team_updPort (s : State) (p : Nat) (f : Port → Port) (j : Nat) : (s.updPort p f).team j = s.team j := rfl
@[simp] theorem State.core_updPort (s : State) (p : Nat) (f : Port → Port) (j : Nat) : (s.updPort p f).core j = s.core j := rfl
@[simp] theorem State.launch_updPort (s : State) (p : Nat) (f : Port → Port) (j : Nat) : (s.updPort p f).launch j = s.launch j := rfl
@[simp] theorem State.queue_updPort (s : State) (p : Nat) (f : Port → Port) (j : Nat) : (s.updPort p f).queue j = s.queue j := rfl
@[simp] theorem State.stream_updPort (s : State) (p : Nat) (f : Port → Port) (j : Nat) : (s.updPort p f).stream j = s.stream j := rfl
@[simp] theorem State.course_updPort (s : State) (p : Nat) (f : Port → Port) (j : Nat) : (s.updPort p f).course j = s.course j := rfl
@[simp] theorem State.cluster_updPort (s : State) (p : Nat) (f : Port → Port) (j : Nat) : (s.updPort p f).cluster j = s.cluster j := rfl
@[simp] theorem State.updPort_updPort (s : State) (p : Nat) (f g : Port → Port) :
    (s.updPort p f).updPort p g = s.updPort p (fun x => g (f x)) := by
  simp [State.updPort]
section
variable (s : State) (p : Nat) (f : Port → Port)
@[simp] theorem State.updPort_cycle_field : (s.updPort p f).cycle = s.cycle := rfl
@[simp] theorem State.updPort_strands_field : (s.updPort p f).strands = s.strands := rfl
@[simp] theorem State.updPort_teams_field : (s.updPort p f).teams = s.teams := rfl
@[simp] theorem State.updPort_cores_field : (s.updPort p f).cores = s.cores := rfl
@[simp] theorem State.updPort_launches_field : (s.updPort p f).launches = s.launches := rfl
@[simp] theorem State.updPort_mem_field : (s.updPort p f).mem = s.mem := rfl
@[simp] theorem State.updPort_log_field : (s.updPort p f).log = s.log := rfl
@[simp] theorem State.updPort_tlb_field : (s.updPort p f).tlb = s.tlb := rfl
@[simp] theorem State.updPort_walks_field : (s.updPort p f).walks = s.walks := rfl
@[simp] theorem State.updPort_cache_field : (s.updPort p f).cache = s.cache := rfl
@[simp] theorem State.updPort_queues_field : (s.updPort p f).queues = s.queues := rfl
@[simp] theorem State.updPort_streams_field : (s.updPort p f).streams = s.streams := rfl
@[simp] theorem State.updPort_courses_field : (s.updPort p f).courses = s.courses := rfl
@[simp] theorem State.updPort_clusters_field : (s.updPort p f).clusters = s.clusters := rfl
@[simp] theorem State.updPort_fltHold_field : (s.updPort p f).fltHold = s.fltHold := rfl
@[simp] theorem State.updPort_ksQueue_field : (s.updPort p f).ksQueue = s.ksQueue := rfl
@[simp] theorem State.updPort_pcieOut_field : (s.updPort p f).pcieOut = s.pcieOut := rfl
@[simp] theorem State.updPort_hostOut_field : (s.updPort p f).hostOut = s.hostOut := rfl
@[simp] theorem State.updPort_msixOut_field : (s.updPort p f).msixOut = s.msixOut := rfl
@[simp] theorem State.updPort_boot_field : (s.updPort p f).boot = s.boot := rfl
@[simp] theorem State.updPort_flash_field : (s.updPort p f).flash = s.flash := rfl
@[simp] theorem State.updPort_held_field : (s.updPort p f).held = s.held := rfl
@[simp] theorem State.updPort_cur_field : (s.updPort p f).cur = s.cur := rfl
@[simp] theorem State.updPort_agenda_field : (s.updPort p f).agenda = s.agenda := rfl
@[simp] theorem State.updPort_iss_field : (s.updPort p f).iss = s.iss := rfl
@[simp] theorem State.updPort_freeN_field : (s.updPort p f).freeN = s.freeN := rfl
end

/-! ### The issuing strand and its team -/

@[simp] theorem State.setSt_eq (s : State) (f : Strand → Strand) : s.setSt f = s.updStrand s.cur f := rfl
@[simp] theorem State.setTm_eq (s : State) (f : Team → Team) : s.setTm f = s.updTeam (teamOf s.cur) f := rfl
@[simp] theorem State.st_updStrand (s : State) (f : Strand → Strand) : (s.updStrand s.cur f).st = f s.st := by simp [State.st]
@[simp] theorem State.tm_updTeam (s : State) (f : Team → Team) : (s.updTeam (teamOf s.cur) f).tm = f s.tm := by simp [State.tm]
@[simp] theorem State.tm_updStrand (s : State) (k : Nat) (f : Strand → Strand) : (s.updStrand k f).tm = s.tm := rfl
@[simp] theorem State.st_updTeam (s : State) (t : Nat) (f : Team → Team) : (s.updTeam t f).st = s.st := rfl

/-! ### Register writes -/

@[simp] theorem State.setA_eq (s : State) (n : Nat) (v : Word) : s.setA n v = s.updStrand s.cur (fun st => st.setA n v) := rfl
@[simp] theorem Strand.setA_a (st : Strand) (n : Nat) (v : Word) (j : Nat) :
    NMap.get 0 (st.setA n v).a j = if j = n then v else NMap.get 0 st.a j := by simp [Strand.setA]
/-- A write of an A register changes nothing else of the strand. -/
theorem Strand.setA_frame (st : Strand) (n : Nat) (v : Word) : { st.setA n v with a := st.a } = st := rfl
theorem Strand.setP_frame (st : Strand) (n : Nat) (b : Option Bool) (m l : BitVec 128) :
    { st.setP n b m l with ps := st.ps, pl := st.pl } = st := by
  unfold Strand.setP
  split <;> rfl
theorem Strand.setLanes_frame (st : Strand) (bay n tag : Nat) (act : Nat → Bool) (vals : List Lane) :
    { st.setLanes bay n tag act vals with v := st.v, vtag := st.vtag } = st := by
  unfold Strand.setLanes
  split <;> rfl

/-- What a register of a bay reads after its active lanes are written. -/
theorem Strand.setLanes_v (st : Strand) (bay n tag : Nat) (act : Nat → Bool) (vals : List Lane) (j : Nat) :
    NMap.get 0 (st.setLanes bay n tag act vals).v j =
      if vKey bay n 0 ≤ j ∧ j < vKey bay n 0 + 16 ∧ act (j - vKey bay n 0) = true then vals.getD (j - vKey bay n 0) 0
      else NMap.get 0 st.v j := by
  unfold Strand.setLanes
  split
  · simp only [NMap.get_setList, List.length_map, List.length_range]
    by_cases h : vKey bay n 0 ≤ j ∧ j < vKey bay n 0 + 16
    · have hl : j - vKey bay n 0 < 16 := by omega
      have hk : vKey bay n (j - vKey bay n 0) = j := by simp only [vKey] at h ⊢; omega
      by_cases ha : act (j - vKey bay n 0) = true
      · simp [h, ha, hl]
      · simp [h, ha, hl, hk]
    · have h2 : ¬ (vKey bay n 0 ≤ j ∧ j < vKey bay n 0 + 16 ∧ act (j - vKey bay n 0) = true) := fun x => h ⟨x.1, x.2.1⟩
      rw [if_neg h, if_neg h2]
  · next hn =>
    have h2 : ¬ (vKey bay n 0 ≤ j ∧ j < vKey bay n 0 + 16 ∧ act (j - vKey bay n 0) = true) := by
      rintro ⟨h1, h3, h4⟩
      exact hn (List.any_eq_true.mpr ⟨j - vKey bay n 0, List.mem_range.mpr (by omega), h4⟩)
    rw [if_neg h2]

/-- What a predicate's S bit reads after a write. -/
theorem Strand.setP_pS (st : Strand) (n : Nat) (b : Option Bool) (m l : BitVec 128) (j : Nat) :
    (st.setP n b m l).pS j = if j = n ∧ n ≠ 0 then (b.getD (st.pS n)) else st.pS j := by
  unfold Strand.setP Strand.pS
  by_cases hn : n = 0
  · simp [hn]
  · cases b with
    | none =>
      by_cases hj : j = n
      · subst hj; simp [hn]
      · simp [hn, hj]
    | some b =>
      by_cases hj : j = n
      · subst hj; simp [hn]
      · simp [hn, hj]

/-- What a predicate's lane bits read after a write. -/
theorem Strand.setP_pL (st : Strand) (n : Nat) (b : Option Bool) (m l : BitVec 128) (j : Nat) :
    (st.setP n b m l).pL j = if j = n ∧ n ≠ 0 then (st.pL n &&& ~~~m) ||| (l &&& m) else st.pL j := by
  unfold Strand.setP Strand.pL
  by_cases hn : n = 0
  · simp [hn]
  · by_cases hj : j = n
    · subst hj; simp [hn]
    · simp [hn, hj]

end Sys2Proof.Machine
end

