-- ==== Sys2Proof/Laws/Effects.lean ====
section
/-! SUPPORT. What the shared operations change, in the words of Safety: writes of A registers, of predicates and of vector lanes, with the
flags they raise. -/

namespace Sys2Proof

open Sys2Proof.Machine

/-- An update of the issuing strand alone. -/
theorem onlyStrand_upd (s : State) (f : Strand → Strand) : OnlyStrand s (s.updStrand s.cur f) :=
  ⟨rfl, fun k hk => by simp [hk]⟩

theorem strandIs_upd (s : State) (f : Strand → Strand) (st : Strand) (h : f s.st = st) : StrandIs s (s.updStrand s.cur f) st :=
  ⟨onlyStrand_upd s f, by rw [State.st_updStrand, h]⟩

/-- An update of the issuing strand's team alone. -/
theorem onlyTeam_upd (s : State) (f : Team → Team) : OnlyTeam s (s.updTeam (teamOf s.cur) f) :=
  ⟨rfl, fun k hk => by simp [hk]⟩

/-- An update of the issuing strand that writes one A register and flags. -/
theorem writesA_upd (s : State) (d : Nat) (v : Word) (fl : Flags) (f : Strand → Strand)
    (hf : f s.st = { s.st.setA d v with flags := s.st.flags ||| fl }) : WritesA s (s.updStrand s.cur f) d v fl := by
  refine ⟨onlyStrand_upd _ _, ?_, ?_, fun n => ?_⟩
  · rw [State.st_updStrand, hf]; rfl
  · rw [State.st_updStrand, hf]
  · simp [aNow, hf, Strand.setA]

theorem writesA_setA (s : State) (d : Nat) (v : Word) : WritesA s (s.setA d v) d v 0 :=
  writesA_upd s d v 0 _ (by simp [Strand.setA])

/-- A numeric effect whose flags enable no trap. -/
theorem numeric_next (s : State) (f : Flags) (effect : State → State) (h : f &&& s.rs.trapen = 0) :
    s.numeric f effect = (effect s).setFlags f := if_pos h

theorem numeric_trap (s : State) (f : Flags) (effect : State → State) (h : f &&& s.rs.trapen ≠ 0) :
    s.numeric f effect = s.raise (arithTrap f) := if_neg h

/-- A numeric effect on the issuing strand, as one update. -/
theorem numeric_upd (s : State) (fl : Flags) (f : Strand → Strand) (h : fl &&& s.rs.trapen = 0) :
    s.numeric fl (fun s => s.updStrand s.cur f) = s.updStrand s.cur (fun st => { f st with flags := (f st).flags ||| fl }) := by
  rw [numeric_next s fl _ h]
  simp [State.setFlags]

theorem writesA_numeric (s : State) (d : Nat) (v : Word) (fl : Flags) (h : fl &&& s.rs.trapen = 0) :
    WritesA s (s.numeric fl (fun s => s.setA d v)) d v fl := by
  simp only [State.setA_eq]
  rw [numeric_upd s fl _ h]
  exact writesA_upd s d v fl _ rfl

/-- The A-slot instructions of two or three register sources. -/
theorem alu_writes (s : State) (o : OpG) (f : Word → Word → Word) (hg : s.pS o.g = true) :
    ∃ t, s.alu o f = .next t ∧ WritesA s t o.d (f (s.aR o.a) (s.aR o.b)) 0 :=
  ⟨_, by simp only [State.alu, State.guarded, hg, if_true], writesA_setA s o.d _⟩

theorem alu3_writes (s : State) (o : OpG) (f : Word → Word → Word → Word) (hg : s.pS o.g = true) :
    ∃ t, s.alu3 o f = .next t ∧ WritesA s t o.d (f (s.aR o.d) (s.aR o.a) (s.aR o.b)) 0 :=
  ⟨_, by simp only [State.alu3, State.guarded, hg, if_true], writesA_setA s o.d _⟩

/-- An update of the issuing strand that writes predicates and flags. -/
theorem writesP_upd (s : State) (fl : Flags) (f : Strand → Strand) (sb : Nat → Bool) (lb : Nat → BitVec 128)
    (hf : { f s.st with ps := s.st.ps, pl := s.st.pl, flags := s.st.flags } = s.st) (hfl : (f s.st).flags = s.st.flags ||| fl)
    (hp : ∀ n, (f s.st).pS n = (n == 0 || sb n) ∧ (f s.st).pL n = if n = 0 then BitVec.allOnes 128 else lb n) :
    WritesP s (s.updStrand s.cur f) fl sb lb :=
  ⟨onlyStrand_upd _ _, by rw [State.st_updStrand, hf], by rw [State.st_updStrand, hfl], by rw [State.st_updStrand]; exact hp⟩

@[simp] theorem Machine.Strand.pS_zero (st : Strand) : st.pS 0 = true := rfl
@[simp] theorem Machine.Strand.pL_zero (st : Strand) : st.pL 0 = BitVec.allOnes 128 := rfl
theorem Machine.Strand.setP_flags (st : Strand) (n : Nat) (b : Option Bool) (m l : BitVec 128) : (st.setP n b m l).flags = st.flags := by
  unfold Strand.setP
  split <;> rfl

theorem mask_all (x y : BitVec 128) : (x &&& ~~~(BitVec.allOnes 128)) ||| (y &&& BitVec.allOnes 128) = y := by
  rw [BitVec.and_allOnes]
  have h : ~~~(BitVec.allOnes 128) = 0#128 := by decide
  rw [h, BitVec.and_zero, BitVec.zero_or]

/-- A truth value in every bit of a predicate. -/
theorem Machine.Strand.setPAll_bits (st : Strand) (n : Nat) (c : Bool) (j : Nat) :
    (st.setPAll n c).pS j = (if j = n ∧ n ≠ 0 then c else st.pS j) ∧
      (st.setPAll n c).pL j = if j = n ∧ n ≠ 0 then (if c then BitVec.allOnes 128 else 0) else st.pL j := by
  unfold Strand.setPAll
  rw [Strand.setP_pS, Strand.setP_pL, mask_all]
  exact ⟨rfl, rfl⟩

/-- A predicate pair, p0 discarding its write, with flags. -/
theorem writesPair_upd (s : State) (pt pf : Nat) (c : Bool) (fl : Flags) (f : Strand → Strand)
    (hf : f s.st = { (s.st.setPAll pt c).setPAll pf (!c) with flags := s.st.flags ||| fl }) :
    WritesPair s (s.updStrand s.cur f) pt pf c fl := by
  refine writesP_upd s fl f _ _ ?_ (by rw [hf]) (fun n => ?_)
  · have h1 := Strand.setP_frame (s.st.setPAll pt c) pf (some !c) (BitVec.allOnes 128) (if !c then BitVec.allOnes 128 else 0)
    have h2 := Strand.setP_frame s.st pt (some c) (BitVec.allOnes 128) (if c then BitVec.allOnes 128 else 0)
    rw [hf]
    generalize ht : (s.st.setPAll pt c).setPAll pf (!c) = u
    generalize hw : s.st.setPAll pt c = w
    have e1 : { u with ps := w.ps, pl := w.pl } = w := by rw [← ht, ← hw]; exact h1
    have e2 : { w with ps := s.st.ps, pl := s.st.pl } = s.st := by rw [← hw]; exact h2
    have e3 : { { u with ps := w.ps, pl := w.pl } with ps := s.st.ps, pl := s.st.pl } = s.st := by rw [e1]; exact e2
    have e4 : u.flags = s.st.flags := by
      have := congrArg Strand.flags e3
      exact this
    have e5 : { u with flags := s.st.flags } = u := by rw [← e4]
    calc _ = { { u with flags := s.st.flags } with ps := s.st.ps, pl := s.st.pl } := rfl
      _ = s.st := by rw [e5]; exact e3
  · rw [hf]
    have h1 := Machine.Strand.setPAll_bits (s.st.setPAll pt c) pf (!c) n
    have h2 := Machine.Strand.setPAll_bits s.st pt c n
    constructor
    · show ((s.st.setPAll pt c).setPAll pf (!c)).pS n = _
      rw [h1.1, h2.1]
      by_cases h0 : n = 0
      · subst h0
        have a1 : ¬ (0 = pf ∧ pf ≠ 0) := fun h => h.2 h.1.symm
        have a2 : ¬ (0 = pt ∧ pt ≠ 0) := fun h => h.2 h.1.symm
        rw [if_neg a1, if_neg a2]
        rfl
      · by_cases hpf : n = pf
        · subst hpf; simp [h0]
        · by_cases hpt : n = pt
          · subst hpt; simp [h0, hpf]
          · simp [h0, hpf, hpt]
    · show ((s.st.setPAll pt c).setPAll pf (!c)).pL n = _
      rw [h1.2, h2.2]
      by_cases h0 : n = 0
      · subst h0
        have a1 : ¬ (0 = pf ∧ pf ≠ 0) := fun h => h.2 h.1.symm
        have a2 : ¬ (0 = pt ∧ pt ≠ 0) := fun h => h.2 h.1.symm
        rw [if_neg a1, if_neg a2, if_pos rfl]
        rfl
      · by_cases hpf : n = pf
        · subst hpf; cases c <;> simp [h0]
        · by_cases hpt : n = pt
          · subst hpt; simp [h0, hpf]
          · simp [h0, hpf, hpt]

theorem writesPair_setPair (s : State) (pt pf : Nat) (c : Bool) : WritesPair s (s.setPair pt pf c) pt pf c 0 := by
  have h : s.setPair pt pf c = s.updStrand s.cur (fun st => (st.setPAll pt c).setPAll pf (!c)) := by
    simp [State.setPair, State.setPAll]
  rw [h]
  refine writesPair_upd s pt pf c 0 _ ?_
  have : ((s.st.setPAll pt c).setPAll pf (!c)).flags = s.st.flags := by
    simp only [Strand.setPAll, Machine.Strand.setP_flags]
  simp [← this]

theorem writesPair_numeric (s : State) (pt pf : Nat) (c : Bool) (fl : Flags) (h : fl &&& s.rs.trapen = 0) :
    WritesPair s (s.numeric fl (fun s => s.setPair pt pf c)) pt pf c fl := by
  have e : (fun s : State => s.setPair pt pf c) = fun s => s.updStrand s.cur (fun st => (st.setPAll pt c).setPAll pf (!c)) := by
    funext s
    simp [State.setPair, State.setPAll]
  rw [e, numeric_upd s fl _ h]
  refine writesPair_upd s pt pf c fl _ ?_
  have : ((s.st.setPAll pt c).setPAll pf (!c)).flags = s.st.flags := by
    simp only [Strand.setPAll, Machine.Strand.setP_flags]
  rw [this]

/-! ### Vector lanes -/

theorem Machine.Strand.setLanes_flags (st : Strand) (bay n tag : Nat) (act : Nat → Bool) (vals : List Lane) :
    (st.setLanes bay n tag act vals).flags = st.flags := by
  unfold Strand.setLanes
  split <;> rfl

/-- An update of the issuing strand that writes the active lanes of one register, its tag and flags. -/
theorem writesV_upd (s : State) (bay d tag : Nat) (act : Nat → Bool) (vals : List Lane) (val : Nat → Lane) (fl : Flags)
    (f : Strand → Strand) (hd : d < 64) (hv : ∀ l, l < 16 → act l = true → vals.getD l 0 = val l)
    (hf : f s.st = { s.st.setLanes bay d tag act vals with flags := s.st.flags ||| fl }) :
    WritesV s (s.updStrand s.cur f) bay d tag act val fl := by
  refine ⟨onlyStrand_upd _ _, ?_, by rw [State.st_updStrand, hf], fun b n l hn hl => ?_, fun b n hn => ?_⟩
  · rw [State.st_updStrand, hf]
    have h := Strand.setLanes_frame s.st bay d tag act vals
    have hfl := Machine.Strand.setLanes_flags s.st bay d tag act vals
    generalize s.st.setLanes bay d tag act vals = u at h hfl
    have e5 : { u with flags := s.st.flags } = u := by rw [← hfl]
    calc _ = { { u with flags := s.st.flags } with v := s.st.v, vtag := s.st.vtag } := rfl
      _ = s.st := by rw [e5]; exact h
  · simp only [laneNow]
    rw [State.st_updStrand, hf]
    show NMap.get 0 (s.st.setLanes bay d tag act vals).v (vKey b n l) = _
    rw [Strand.setLanes_v]
    by_cases h : b = bay ∧ n = d
    · obtain ⟨rfl, rfl⟩ := h
      have hk : vKey b n l - vKey b n 0 = l := by simp only [vKey]; omega
      have h1 : vKey b n 0 ≤ vKey b n l ∧ vKey b n l < vKey b n 0 + 16 := by simp only [vKey]; omega
      rw [hk]
      by_cases ha : act l = true
      · simp [h1, ha, ← hv l hl ha]
      · simp [ha]
    · have h1 : ¬ (vKey bay d 0 ≤ vKey b n l ∧ vKey b n l < vKey bay d 0 + 16) := by
        intro hh
        apply h
        simp only [vKey] at hh
        omega
      have h2 : ¬ (vKey bay d 0 ≤ vKey b n l ∧ vKey b n l < vKey bay d 0 + 16 ∧ act (vKey b n l - vKey bay d 0) = true) :=
        fun x => h1 ⟨x.1, x.2.1⟩
      have h3 : ¬ (b = bay ∧ n = d ∧ act l = true) := fun x => h ⟨x.1, x.2.1⟩
      rw [if_neg h2, if_neg h3]
  · simp only [tagNow]
    rw [State.st_updStrand, hf]
    show NMap.get 0 (s.st.setLanes bay d tag act vals).vtag (vTagKey b n) = _
    unfold Strand.setLanes
    by_cases ha : (List.range 16).any act = true
    · simp only [ha, if_true, NMap.get_set, and_true]
      have : vTagKey b n = vTagKey bay d ↔ b = bay ∧ n = d := by
        simp only [vTagKey]
        omega
      simp only [this]
    · simp [ha]

theorem writesV_setLanes (s : State) (bay d tag : Nat) (act : Nat → Bool) (vals : List Lane) (val : Nat → Lane) (hd : d < 64)
    (hv : ∀ l, l < 16 → act l = true → vals.getD l 0 = val l) : WritesV s (s.setLanes bay d tag act vals) bay d tag act val 0 :=
  writesV_upd s bay d tag act vals val 0 _ hd hv (by
    have := Machine.Strand.setLanes_flags s.st bay d tag act vals
    simp [← this])

theorem writesV_numeric (s : State) (bay d tag : Nat) (act : Nat → Bool) (vals : List Lane) (val : Nat → Lane) (fl : Flags) (hd : d < 64)
    (hv : ∀ l, l < 16 → act l = true → vals.getD l 0 = val l) (h : fl &&& s.rs.trapen = 0) :
    WritesV s (s.numeric fl (fun s => s.setLanes bay d tag act vals)) bay d tag act val fl := by
  have e : (fun s : State => s.setLanes bay d tag act vals) = fun s => s.updStrand s.cur (fun st => st.setLanes bay d tag act vals) := rfl
  rw [e, numeric_upd s fl _ h]
  exact writesV_upd s bay d tag act vals val fl _ hd hv (by rw [Machine.Strand.setLanes_flags])

theorem orFlags_append (l : List Flags) (a : Flags) : orFlags (l ++ [a]) = orFlags l ||| a := by simp [orFlags]

/-- A lane function in the active lanes, with the flags that those lanes raise. -/
theorem lanewise_writes (s : State) (bay g d : Nat) (f : Nat → Nat × Flags) (val : Nat → Lane) (fl : Flags) (hd : d < 64)
    (hfl : orFlags ((List.range 16).map (fun l => if s.active g bay l then (f l).2 else 0)) = fl) (h : fl &&& s.rs.trapen = 0)
    (hv : ∀ l, l < 16 → s.active g bay l = true → BitVec.ofNat 32 (f l).1 = val l) :
    ∃ t, s.lanewise bay g d f = .next t ∧ WritesV s t bay d 0 (s.active g bay) val fl := by
  have e : (List.range 16).map (fun l => if s.active g bay l then ((((List.range 16).map f)[l]?).map (·.2)).getD 0 else 0) =
      (List.range 16).map (fun l => if s.active g bay l then (f l).2 else 0) := by
    apply List.map_congr_left
    intro l hl
    simp [List.mem_range.mp hl]
  have hw := writesV_numeric s bay d 0 (s.active g bay) (((List.range 16).map f).map (fun r => BitVec.ofNat 32 r.1)) val fl hd
    (fun l hl ha => by simp [← hv l hl ha, hl]) h
  rw [← hfl, ← e] at hw ⊢
  exact ⟨_, rfl, hw⟩

/-- A lane function that raises no flag. -/
theorem lanewise_writes_zero (s : State) (bay g d : Nat) (f : Nat → Nat × Flags) (val : Nat → Lane) (hd : d < 64)
    (hf : ∀ l, (f l).2 = 0) (hv : ∀ l, l < 16 → s.active g bay l = true → BitVec.ofNat 32 (f l).1 = val l) :
    ∃ t, s.lanewise bay g d f = .next t ∧ WritesV s t bay d 0 (s.active g bay) val 0 := by
  refine lanewise_writes s bay g d f val 0 hd ?_ (BitVec.zero_and) hv
  simp only [hf, ite_self]
  rfl

theorem vop2_writes (s : State) (o : OpV) (f : Lane → Lane → Lane) (val : Nat → Lane) (hd : o.d < 64)
    (hv : ∀ l, f (s.vR o.bay o.a l) (s.vR o.bay o.b l) = val l) :
    ∃ t, s.vop2 o f = .next t ∧ WritesV s t o.bay o.d 0 (s.active o.g o.bay) val 0 :=
  lanewise_writes_zero s o.bay o.g o.d _ val hd (fun _ => rfl) (fun l _ _ => by simp [hv l])

theorem vop3_writes (s : State) (o : OpV) (f : Lane → Lane → Lane → Lane) (val : Nat → Lane) (hd : o.d < 64)
    (hv : ∀ l, f (s.vR o.bay o.d l) (s.vR o.bay o.a l) (s.vR o.bay o.b l) = val l) :
    ∃ t, s.vop3 o f = .next t ∧ WritesV s t o.bay o.d 0 (s.active o.g o.bay) val 0 :=
  lanewise_writes_zero s o.bay o.g o.d _ val hd (fun _ => rfl) (fun l _ _ => by simp [hv l])

end Sys2Proof
end

