-- ==== Sys2Proof/Laws/Ops.lean ====
section
/-! SUPPORT. Laws of the shared operations over memory, records, traps and translation: what each changes, once. A record that is posted
touches the fault queue, its memory and the runtime's mailbox 0; a translation touches besides the free list, the mapping counts, the
credit of streams, the cached translations and the counter of free values. -/

namespace Sys2Proof

open Sys2Proof.Machine

/-! ### Guards and checks -/

@[simp] theorem guarded_true (s : State) (g : Nat) (f : State → State) (h : s.pS g = true) : s.guarded g f = f s := by
  simp [State.guarded, h]
@[simp] theorem guarded_false (s : State) (g : Nat) (f : State → State) (h : s.pS g = false) : s.guarded g f = s := by
  simp [State.guarded, h]

theorem firstTrap_ok (l : List Check) (h : ∀ c ∈ l, c = .ok) : firstTrap l = none := by
  induction l with
  | nil => rfl
  | cons c r ih =>
    obtain rfl := h c (by simp)
    simpa [firstTrap] using ih (fun d hd => h d (by simp [hd]))

theorem firstWait_ok (l : List Check) (h : ∀ c ∈ l, c = .ok) : firstWait l = none := by
  induction l with
  | nil => rfl
  | cons c r ih =>
    obtain rfl := h c (by simp)
    simpa [firstWait] using ih (fun d hd => h d (by simp [hd]))

/-- Where every check passes the effect takes place. -/
theorem checked_ok (s : State) (l : List Check) (f : State → State) (h : ∀ c ∈ l, c = .ok) : s.checked l f = f s := by
  simp [State.checked, firstTrap_ok l h, firstWait_ok l h]

theorem checked_trap (s : State) (l : List Check) (f : State → State) (r : TrapRec) (h : firstTrap l = some r) :
    s.checked l f = s.raise r := by
  simp [State.checked, h]

/-! ### Memory -/

/-- The writes of consecutive bytes, as one write of a list. -/
theorem Machine.Memory.foldl_cells (bs : List Byte) (m : Memory) (pa : Nat) :
    (((List.range bs.length).zip bs).map (fun p => (pa + p.1, p.2))).foldl (fun m p => Memory.write m p.1 p.2) m = Memory.writeList m pa bs := by
  induction bs generalizing m pa with
  | nil => rfl
  | cons b r ih =>
    rw [List.length_cons, List.range_succ_eq_map, List.zip_cons_cons, List.map_cons, List.foldl_cons, List.zip_map_left, List.map_map]
    have e : (fun p : Nat × Byte => (pa + p.1, p.2)) ∘ Prod.map Nat.succ id = fun p => (pa + 1 + p.1, p.2) := by
      funext p
      simp only [Function.comp, Prod.map, id, Nat.succ_eq_add_one]
      rw [Nat.add_assoc, Nat.add_comm 1]
    rw [e, ih]
    rfl

/-- A publication changes memory and the log, and nothing else. -/
theorem publishAt_frame (s : State) (ag : Agent) (c k sc : Nat) (at_ : Bool) (bs : List (Nat × Byte)) :
    { s.publishAt ag c k sc at_ bs with mem := s.mem, log := s.log } = s := by
  unfold State.publishAt
  split <;> rfl

@[simp] theorem publishAt_nil (s : State) (ag : Agent) (c k sc : Nat) (at_ : Bool) : s.publishAt ag c k sc at_ [] = s := rfl

theorem publishAt_mem (s : State) (ag : Agent) (c k sc : Nat) (at_ : Bool) (bs : List (Nat × Byte)) :
    (s.publishAt ag c k sc at_ bs).mem = bs.foldl (fun m p => Memory.write m p.1 p.2) s.mem := by
  unfold State.publishAt
  split
  · next h => rw [List.isEmpty_iff.mp h]; rfl
  · rfl

theorem poke_frame (s : State) (pa : Nat) (bs : List Byte) (sc : Nat) : { s.poke pa bs sc with mem := s.mem, log := s.log } = s :=
  publishAt_frame _ _ _ _ _ _ _

/-- A poke changes its own bytes and no other. -/
theorem poke_read (s : State) (pa : Nat) (bs : List Byte) (sc a : Nat) :
    Memory.read (s.poke pa bs sc).mem a = if pa ≤ a ∧ a < pa + bs.length then bs.getD (a - pa) 0 else Memory.read s.mem a := by
  unfold State.poke
  rw [publishAt_mem]
  rw [Memory.foldl_cells, Memory.read_writeList]

/-- A frame given new contents: memory and the log change, and nothing else. -/
theorem refill_frame (s : State) (pa n : Nat) (bs : List Byte) : { s.refill pa n bs with mem := s.mem, log := s.log } = s := rfl

theorem publishAt_wf (s : State) (ag : Agent) (c k sc : Nat) (at_ : Bool) (bs : List (Nat × Byte)) (h : MemInv s) :
    MemInv (s.publishAt ag c k sc at_ bs) := by
  unfold MemInv
  rw [publishAt_mem]
  exact Memory.wf_foldl_write bs s.mem h

theorem poke_wf (s : State) (pa : Nat) (bs : List Byte) (sc : Nat) (h : MemInv s) : MemInv (s.poke pa bs sc) := publishAt_wf _ _ _ _ _ _ _ h

theorem refill_wf (s : State) (pa n : Nat) (bs : List Byte) (h : MemInv s) : MemInv (s.refill pa n bs) :=
  Memory.wf_writeList bs _ pa (Memory.wf_filter s.mem _ h)

/-! ### Records -/

/-- Nothing differs but memory, translation, the block cache, the fault queue, interrupts, the runtime's mailbox, the count of dropped mailbox
writes and what waits for the home slices: what a posted record or a
translation may touch, and the canonical form of memory is kept. -/
def Aside (s t : State) : Prop :=
  { t with
    strands := s.strands, mem := s.mem, log := s.log, tlb := s.tlb, walks := s.walks, cache := s.cache, freeHead := s.freeHead, free := s.free, mapCount := s.mapCount,
    streams := s.streams, fltTail := s.fltTail, fltHold := s.fltHold, fltSeq := s.fltSeq, fltLost := s.fltLost, msixPend := s.msixPend,
    msixOut := s.msixOut, mbxDrop := s.mbxDrop, held := s.held, freeN := s.freeN } = s ∧
  (∀ k, { t.strand k with mbx := (s.strand k).mbx, arrive := (s.strand k).arrive, run := (s.strand k).run } = s.strand k) ∧
  (∀ k, k ≠ 4 * runtimeTeam → t.strand k = s.strand k) ∧ (MemInv s → MemInv t)

theorem aside_refl (s : State) : Aside s s := ⟨rfl, fun _ => rfl, fun _ _ => rfl, id⟩

theorem aside_trans {s t u : State} (h : Aside s t) (g : Aside t u) : Aside s u := by
  refine ⟨?_, fun k => ?_, fun k hk => (g.2.2.1 k hk).trans (h.2.2.1 k hk), fun m => g.2.2.2 (h.2.2.2 m)⟩
  · have e := h.1
    rw [← g.1] at e
    exact e
  · have e := h.2.1 k
    rw [← g.2.1 k] at e
    exact e

/-- A change of memory, translation, the fault queue or interrupts alone. -/
theorem aside_of {s t : State}
    (h : { t with
      mem := s.mem, log := s.log, tlb := s.tlb, walks := s.walks, cache := s.cache, freeHead := s.freeHead, free := s.free, mapCount := s.mapCount,
      streams := s.streams, fltTail := s.fltTail, fltHold := s.fltHold, fltSeq := s.fltSeq, fltLost := s.fltLost, msixPend := s.msixPend,
      msixOut := s.msixOut, mbxDrop := s.mbxDrop, held := s.held, freeN := s.freeN } = s) (hm : MemInv s → MemInv t) : Aside s t := by
  have e : t.strands = s.strands := by rw [← h]
  have e' : ∀ k, t.strand k = s.strand k := fun k => by unfold State.strand; rw [e]
  refine ⟨?_, fun k => ?_, fun k _ => e' k, hm⟩
  · rw [← e]; exact h
  · rw [e' k]

section
variable {s t : State} (h : Aside s t)
include h
theorem Aside.teams : t.teams = s.teams := by
  have e := congrArg State.teams h.1
  exact e
theorem Aside.cores : t.cores = s.cores := by
  have e := congrArg State.cores h.1
  exact e
theorem Aside.launches : t.launches = s.launches := by
  have e := congrArg State.launches h.1
  exact e
theorem Aside.queues : t.queues = s.queues := by
  have e := congrArg State.queues h.1
  exact e
theorem Aside.tasks : t.tasks = s.tasks := by
  have e := congrArg State.tasks h.1
  exact e
theorem Aside.ports : t.ports = s.ports := by
  have e := congrArg State.ports h.1
  exact e
theorem Aside.ringCmds : t.ringCmds = s.ringCmds := by
  have e := congrArg State.ringCmds h.1
  exact e
theorem Aside.pcieOut : t.pcieOut = s.pcieOut := by
  have e := congrArg State.pcieOut h.1
  exact e
theorem Aside.cycle : t.cycle = s.cycle := by
  have e := congrArg State.cycle h.1
  exact e
theorem Aside.cur : t.cur = s.cur := by
  have e := congrArg State.cur h.1
  exact e
theorem Aside.iss : t.iss = s.iss := by
  have e := congrArg State.iss h.1
  exact e
theorem Aside.agenda : t.agenda = s.agenda := by
  have e := congrArg State.agenda h.1
  exact e
theorem Aside.ksQueue : t.ksQueue = s.ksQueue := by
  have e := congrArg State.ksQueue h.1
  exact e
theorem Aside.team (u : Nat) : t.team u = s.team u := by unfold State.team; rw [h.teams]
theorem Aside.core (c : Nat) : t.core c = s.core c := by unfold State.core; rw [h.cores]
theorem Aside.launch (l : Nat) : t.launch l = s.launch l := by unfold State.launch; rw [h.launches]
theorem Aside.queue (q : Nat) : t.queue q = s.queue q := by unfold State.queue; rw [h.queues]
theorem Aside.port (p : Nat) : t.port p = s.port p := by unfold State.port; rw [h.ports]
theorem Aside.tm : t.tm = s.tm := by unfold State.tm; rw [h.cur, h.team]
/-- The registers of a strand, all but its mailboxes. -/
theorem Aside.a (k : Nat) : (t.strand k).a = (s.strand k).a := by
  have e := congrArg Strand.a (h.2.1 k)
  exact e
theorem Aside.pc (k : Nat) : (t.strand k).pc = (s.strand k).pc := by
  have e := congrArg Strand.pc (h.2.1 k)
  exact e
theorem Aside.stores (k : Nat) : (t.strand k).stores = (s.strand k).stores := by
  have e := congrArg Strand.stores (h.2.1 k)
  exact e
theorem Aside.pend (k : Nat) : (t.strand k).pend = (s.strand k).pend := by
  have e := congrArg Strand.pend (h.2.1 k)
  exact e
theorem Aside.level (k : Nat) : (t.strand k).level = (s.strand k).level := by
  have e := congrArg Strand.level (h.2.1 k)
  exact e
end

theorem applyMbx_runtime_aside (s : State) (m : Nat) (v : Word) : Aside s (s.applyMbx (4 * runtimeTeam) m v) := by
  refine ⟨rfl, fun k => ?_, fun k hk => ?_, id⟩
  · unfold State.applyMbx
    rw [State.strand_updStrand]
    split
    · next hk => subst hk; rfl
    · rfl
  · unfold State.applyMbx
    rw [State.strand_updStrand, if_neg hk]

theorem deliverMbx_runtime_aside (s : State) (m : Nat) (v : Word) : Aside s (s.deliverMbx (4 * runtimeTeam) m v) := by
  unfold State.deliverMbx
  split
  · exact aside_of rfl id
  · exact aside_of rfl id
  · exact applyMbx_runtime_aside s m v

theorem msix_aside (s : State) (v : Nat) : Aside s (s.msix v) := by
  unfold State.msix
  split <;> exact aside_of rfl id

theorem poke_aside (s : State) (pa : Nat) (bs : List Byte) (sc : Nat) : Aside s (s.poke pa bs sc) := by
  refine aside_of ?_ (poke_wf s pa bs sc)
  unfold State.poke State.publishAt
  split <;> rfl

theorem refill_aside (s : State) (pa n : Nat) (bs : List Byte) : Aside s (s.refill pa n bs) := aside_of rfl (refill_wf s pa n bs)

theorem writeRecord_aside (s : State) (r : Record) : Aside s (s.writeRecord r) := by
  have h := poke_aside s (s.fltBase + 64 * (s.fltTail % s.fltSize)) ((r.dwords.map (leBytes 8)).flatten) 3
  unfold State.writeRecord
  dsimp only
  generalize s.poke (s.fltBase + 64 * (s.fltTail % s.fltSize)) ((r.dwords.map (leBytes 8)).flatten) 3 = u at h ⊢
  have g : Aside u { u with fltTail := (u.fltTail + 1) % 2 ^ 32 } := aside_of rfl id
  generalize ({ u with fltTail := (u.fltTail + 1) % 2 ^ 32 } : State) = w at g ⊢
  exact aside_trans h (aside_trans g (aside_trans (deliverMbx_runtime_aside w 0 _) (msix_aside _ 515)))

/-- A posted record (R403). -/
theorem post_aside (s : State) (r : Record) : Aside s (s.post r) := by
  unfold State.post
  dsimp only
  split
  · have g : Aside s { s with fltSeq := s.fltSeq + 1 } := aside_of rfl id
    exact aside_trans g (writeRecord_aside _ _)
  · split
    · exact aside_of rfl id
    · exact aside_of rfl id

/-! ### Translation -/

theorem poolLow_aside (s : State) (b : Nat) : Aside s (s.poolLow b) := by
  unfold State.poolLow
  split
  · exact post_aside _ _
  · exact aside_refl _

theorem takeFrame_aside (s : State) : Aside s s.takeFrame.1 := by
  unfold State.takeFrame
  split
  · exact aside_refl _
  · exact aside_trans (t := { s with free := s.free - 1, freeHead := bits (s.peek s.freeHead 8) 16 36 * 65536 }) (aside_of rfl id) (poolLow_aside _ _)

theorem dropMaps_aside (s : State) (hit : Nat → Nat → Nat → Bool) : Aside s (s.dropMaps hit) := aside_of rfl id

theorem growTable_aside (s : State) (asid va pte a : Nat) : Aside s (s.growTable asid va pte a).1 := by
  have h := takeFrame_aside s
  unfold State.growTable
  rcases ht : s.takeFrame with ⟨u, f⟩
  rw [ht] at h
  cases f with
  | none => exact aside_refl _
  | some f => exact aside_trans h (aside_trans (refill_aside _ _ _ _) (aside_trans (poke_aside _ _ _ _) (dropMaps_aside _ _)))

theorem growPage_aside (s : State) (asid va pte a : Nat) : Aside s (s.growPage asid va pte a).1 := by
  have h := takeFrame_aside s
  unfold State.growPage
  rcases ht : s.takeFrame with ⟨u, f⟩
  rw [ht] at h
  split
  · exact aside_refl s
  · cases f with
    | none => exact aside_refl s
    | some f =>
      have g := aside_trans h (aside_trans (refill_aside u f 65536 []) (aside_trans (poke_aside _ a (leBytes 8 (f + pte % 512 / 2 * 2 + 1)) 3)
        (dropMaps_aside _ (meets asid (va / 65536 * 65536) 65536))))
      dsimp only
      generalize ((u.refill f 65536 []).poke a (leBytes 8 (f + pte % 512 / 2 * 2 + 1)) 3).dropMaps (meets asid (va / 65536 * 65536) 65536) = v at g ⊢
      cases v.kvStream asid va with
      | some n => exact aside_trans g (aside_of rfl id)
      | none => exact aside_trans g (aside_of rfl id)

theorem walkGrow_aside (s : State) (via : Bool) (perm : Nat → Bool) (asid va n : Nat) : Aside s (s.walkGrow via perm asid va n).1 := by
  induction n generalizing s with
  | zero => exact aside_refl _
  | succ n ih =>
    unfold State.walkGrow
    split
    · exact aside_refl _
    · next lvl pte a _ =>
      split
      · exact aside_refl _
      · split
        · split
          · exact aside_refl _
          · split
            · exact aside_refl _
            · have h := growTable_aside s asid va pte a
              split
              · next u hu => rw [hu] at h; exact aside_trans h (ih u)
              · exact aside_refl _
        · have h := growPage_aside s asid va pte a
          split
          · next u hu => rw [hu] at h; exact aside_trans h (ih u)
          · exact aside_refl _
    · exact aside_refl _
    · exact aside_refl _

theorem versionOf_aside (s : State) (l asid va pa : Nat) : Aside s (s.versionOf l asid va pa).1 := by
  unfold State.versionOf
  dsimp only
  split
  · exact aside_refl _
  · split
    · split
      · exact aside_refl _
      · exact aside_of rfl id
    · exact aside_of rfl id

theorem noteWalk_aside (s : State) (via : Bool) (asid va : Nat) : Aside s (s.noteWalk via asid va) := aside_of rfl id

theorem useTlb_aside (s : State) (asid va leaf attr : Nat) (large : Bool) : Aside s (s.useTlb asid va leaf attr large) := aside_of rfl id

theorem staleWalk_aside (s : State) (asid va : Nat) : Aside s (s.staleWalk asid va).1 := by
  unfold State.staleWalk
  split <;> exact aside_of rfl id

theorem translateWalk_aside (s : State) (perm : Nat → Bool) (l asid va : Nat) : Aside s (s.translateWalk perm l asid va).1 := by
  have h := staleWalk_aside s asid va
  unfold State.translateWalk
  rcases hs : s.staleWalk asid va with ⟨u, via⟩
  rw [hs] at h
  have g := walkGrow_aside u via perm asid va 4
  dsimp only at h ⊢
  split
  · next v pa leaf attr large hv =>
    rw [hv] at g
    exact aside_trans h (aside_trans g (aside_trans (noteWalk_aside v via asid va)
      (aside_trans (useTlb_aside _ asid va leaf attr large) (versionOf_aside _ _ _ _ _))))
  · exact aside_trans h g

theorem tlbHit_aside (s : State) (b large : Bool) (l asid va leaf attr pa : Nat) :
    Aside s (((if b then s else { s with freeN := s.freeN + 1 }).useTlb asid va leaf attr large).versionOf l asid va pa).1 := by
  have h : Aside s (if b = true then s else { s with freeN := s.freeN + 1 }) := by split <;> exact aside_of rfl id
  exact aside_trans h (aside_trans (useTlb_aside _ asid va leaf attr large) (versionOf_aside _ _ _ _ _))

theorem translate_aside (s : State) (perm : Nat → Bool) (l asid va : Nat) : Aside s (s.translate perm l asid va).1 := by
  have w : Aside s ({ s with freeN := s.freeN + 1 }.translateWalk perm l asid va).1 :=
    aside_trans (t := { s with freeN := s.freeN + 1 }) (aside_of rfl id) (translateWalk_aside _ _ _ _ _)
  unfold State.translate
  split
  · exact translateWalk_aside _ _ _ _ _
  · dsimp only
    split <;> split
    · exact tlbHit_aside _ _ _ _ _ _ _ _ _
    · exact w
    · exact tlbHit_aside s false _ _ _ _ _ _ _
    · exact w

theorem refilter_aside (s : State) (asid vb pb : Nat) : Aside s (s.refilter asid vb pb) := by
  unfold State.refilter
  dsimp only
  split
  · split <;> exact aside_of rfl id
  · exact aside_of rfl id

/-- An access at the block cache (R378, R379, R388). -/
theorem touchCache_aside (s : State) (asid va pa leaf : Nat) (w : Bool) : Aside s (s.touchCache asid va pa leaf w).1 := by
  unfold State.touchCache
  dsimp only
  split
  · exact aside_of rfl id
  · have h := refilter_aside s asid (va / 4096) (pa / 4096)
    generalize s.refilter asid (va / 4096) (pa / 4096) = u at h ⊢
    exact aside_trans h (aside_of rfl id)

theorem touchAt_aside (s : State) (asid va pa : Nat) (w : Bool) : Aside s (s.touchAt asid va pa w) := by
  unfold State.touchAt
  split
  · split
    · exact touchCache_aside _ _ _ _ _ _
    · exact aside_refl s
  · exact aside_refl s

/-- A translated and checked access (R82 to R85, R384). -/
theorem access_aside (s : State) (l asid level va : Nat) (kind : AccessKind) : Aside s (s.access l asid level va kind).1 := by
  have h := translate_aside s (kind.permits level) l asid va
  unfold State.access
  split
  · next u hu => rw [hu] at h; exact h
  · next u hu => rw [hu] at h; exact h
  · next u pa leaf attr _ hu =>
    rw [hu] at h
    dsimp only
    split
    · exact h
    · split <;> exact h

theorem strandAccess_aside (s : State) (k va : Nat) (kind : AccessKind) : Aside s (s.strandAccess k va kind).1 := by
  unfold State.strandAccess
  dsimp only
  split
  · exact aside_refl s
  · exact access_aside _ _ _ _ _ _

/-- The checks of a global access (R188). -/
theorem globalCheck_aside (s : State) (ea : Word) (n : Nat) (kind : AccessKind) : Aside s (s.globalCheck ea n kind).1 := by
  have h := strandAccess_aside s s.cur ea.toNat kind
  unfold State.globalCheck
  split
  · exact aside_refl s
  · split
    · exact aside_refl s
    · split <;> next u hu => rw [hu] at h; exact h

/-! ### Job control blocks -/

theorem hwJcb_aside (s : State) (lh asid va : Nat) (u : JcbUpdate) : Aside s (s.hwJcb lh asid va u) := by
  have h := access_aside s 0 asid 0 va .write
  unfold State.hwJcb
  split
  · exact post_aside _ _
  · split
    · exact aside_of rfl id
    split
    · next u pa leaf _ hu =>
      rw [hu] at h
      refine aside_trans h (aside_trans (touchCache_aside u asid va pa leaf true) ?_)
      generalize (u.touchCache asid va pa leaf true).1 = v
      refine aside_of ?_ (publishAt_wf _ _ _ _ _ _ _)
      unfold State.updJcb State.publishAt
      dsimp only
      split <;> rfl
    · next u _ _ hu => rw [hu] at h; exact aside_trans h (post_aside _ _)

/-- An error posted to a launch's job control block (R267, R268). -/
theorem jcbError_aside (s : State) (l code detail addr : Nat) : Aside s (s.jcbError l code detail addr) := by
  unfold State.jcbError State.launchJcb
  dsimp only
  split
  · exact aside_refl s
  · exact hwJcb_aside _ _ _ _ _

/-! ### Traps and faults -/

/-- A fault that parks a strand (R42): the strand, the keystone's queue for a keystone event, and a record. -/
theorem park_aside (s : State) (k : Nat) (f : ParkedFault) :
    Aside { s.updStrand k (fun st => { st with run := .parked, parked := some f, pc := f.tepc, rep := f.trep, bnd := none }) with
      ksQueue := if 0x80 ≤ f.code then s.ksQueue ++ [s.faultRecord k 1 f] else s.ksQueue } (s.park k f) := by
  unfold State.park
  dsimp only
  by_cases h : 0x80 ≤ f.code
  · rw [if_pos h, if_pos h, if_pos h]
    exact post_aside _ _
  · rw [if_neg h, if_neg h, if_neg h]
    exact post_aside _ _

theorem park_strand (s : State) (k : Nat) (f : ParkedFault) (hk : k ≠ 4 * runtimeTeam) :
    (s.park k f).strand k = { s.strand k with run := .parked, parked := some f, pc := f.tepc, rep := f.trep, bnd := none } := by
  rw [(park_aside s k f).2.2.1 k hk]
  have e := State.strand_updStrand s k (fun st => { st with run := .parked, parked := some f, pc := f.tepc, rep := f.trep, bnd := none }) k
  rw [if_pos rfl] at e
  exact e

/-- A trap that the team's handler takes is the entry of R37. -/
theorem takeTrap_entry (s : State) (k : Nat) (tepc : VA) (trep code : Nat) (tinfo : Word) (hc : code < 0x40)
    (hm : (s.strand k).tmode = false) (hh : (s.team (teamOf k)).handler ≠ 0) :
    s.takeTrap k tepc trep code tinfo = s.trapEntry k tepc trep code tinfo := by
  unfold State.takeTrap
  rw [if_neg (by omega), if_neg (by simp [hm]), if_neg (by simp only [Bool.and_eq_true, decide_eq_true_eq]; exact fun h => hh h.2)]

theorem trapEntry_only (s : State) (k : Nat) (tepc : VA) (trep code : Nat) (tinfo : Word) :
    OnlyStrands s (s.trapEntry k tepc trep code tinfo) ∧ ∀ j, j ≠ k → (s.trapEntry k tepc trep code tinfo).strand j = s.strand j :=
  ⟨rfl, fun j hj => by unfold State.trapEntry; dsimp only; rw [State.strand_updStrand, if_neg hj]⟩

/-- A trap of a slot keeps memory's canonical form and every team. -/
theorem raise_teams (s : State) (r : TrapRec) : (s.raise r).teams = s.teams := by
  have hp : ∀ (u : State) (k : Nat) (f : ParkedFault), (u.park k f).teams = u.teams := fun u k f => (park_aside u k f).teams
  unfold State.raise State.takeTrap
  dsimp only
  split
  · exact hp _ _ _
  · split
    · exact hp _ _ _
    · split
      · exact hp _ _ _
      · rfl

theorem raise_wf (s : State) (r : TrapRec) (h : MemInv s) : MemInv (s.raise r) := by
  have hp : ∀ (u : State) (k : Nat) (f : ParkedFault), MemInv u → MemInv (u.park k f) := fun u k f hu => (park_aside u k f).2.2.2 hu
  unfold State.raise State.takeTrap
  dsimp only
  split
  · exact hp _ _ _ h
  · split
    · exact hp _ _ _ h
    · split
      · exact hp _ _ _ h
      · exact h

/-! ### Results that come later, and commands -/

theorem answerAt_strand (s : State) (dest : PendDest) (v due : Nat) (ok done : Bool) (k : Nat) :
    (s.answerAt dest v due ok done).strand k = if k = s.cur
      then { s.st with pend := s.st.pend ++ [{ global := false, dest := dest, value := v, ok := ok, due := due, done := done }] }
      else s.strand k := by
  have e := State.strand_updStrand s s.cur (fun st =>
    { st with pend := st.pend ++ [{ global := false, dest := dest, value := v, ok := ok, due := due, done := done }] }) k
  exact e

theorem service_strand (s : State) (dest : PendDest) (v : Nat) (ok done : Bool) (k : Nat) :
    (s.service dest v ok done).strand k = if k = s.cur
      then { s.st with pend := s.st.pend ++ [{ global := false, dest := dest, value := v, ok := ok, due := s.serviceDue, done := done }] }
      else s.strand k := by
  have e := answerAt_strand s dest v s.serviceDue ok done k
  exact e

/-- The answer of a plinth service is one more outstanding result of the strand, 40 cycles away or more (R302). -/
theorem service_answers (s : State) (dest : PendDest) (v : Nat) (ok : Bool) :
    Answers s (s.service dest v ok true) dest v ok := by
  have e : (s.service dest v ok true).st = { s.st with
      pend := s.st.pend ++ [{ global := false, dest := dest, value := v, ok := ok, due := s.serviceDue, done := true }] } :=
    (service_strand s dest v ok true s.cur).trans (if_pos rfl)
  refine ⟨by rw [e], { global := false, dest := dest, value := v, ok := ok, due := s.serviceDue, done := true }, by rw [e], rfl, rfl, rfl, rfl,
    rfl, ?_⟩
  show s.cycle + 40 ≤ s.cycle + 40 + _
  omega

theorem answerAt_frame (s : State) (dest : PendDest) (v due : Nat) (ok done : Bool) :
    { s.answerAt dest v due ok done with strands := s.strands } = s := rfl

theorem service_frame (s : State) (dest : PendDest) (v : Nat) (ok done : Bool) :
    { s.service dest v ok done with strands := s.strands, freeN := s.freeN } = s := rfl

/-- Closing the shutters of some items. -/
theorem closes_frame (l : List Nat) (T : Team) :
    { l.foldl (fun T i => if T.shutter i == .t then T.setShutter i .cmd else T) T with shut := T.shut } = T := by
  induction l generalizing T with
  | nil => rfl
  | cons i r ih =>
    rw [List.foldl_cons]
    have h := ih (if T.shutter i == .t then T.setShutter i .cmd else T)
    generalize r.foldl (fun T i => if T.shutter i == .t then T.setShutter i .cmd else T) (if T.shutter i == .t then T.setShutter i .cmd else T) = U at h ⊢
    split at h
    · have e := congrArg (fun V : Team => { V with shut := T.shut }) h
      exact e
    · exact h

theorem le_foldl_max (l : List Nat) (a : Nat) : a ≤ l.foldl Nat.max a ∧ ∀ x ∈ l, x ≤ l.foldl Nat.max a := by
  induction l generalizing a with
  | nil => exact ⟨Nat.le_refl a, by simp⟩
  | cons b r ih =>
    obtain ⟨h1, h2⟩ := ih (Nat.max a b)
    rw [List.foldl_cons]
    refine ⟨Nat.le_trans (Nat.le_max_left a b) h1, fun x hx => ?_⟩
    rcases List.mem_cons.mp hx with rfl | hx
    · exact Nat.le_trans (Nat.le_max_right a x) h1
    · exact h2 x hx

/-- An engine command that enters the D queue (R263, R264): its place in the team's list, its start, its promise. -/
theorem enqueueD_enqueued (s : State) (c : Cmd) (closes : List Nat) (rate : Nat) (glob pr took : Option Nat)
    (h : s.dQueue (s.coreOf (teamOf s.cur)) < 16) : Enqueued s (s.enqueueD c closes rate glob pr took) c.op c.src c.dst c.n pr := by
  generalize hst : ((s.cycle + 16) :: ((s.coreCmds (s.coreOf (teamOf s.cur))).filter (fun d => d.2.sameEngine c)).map (·.2.due) ++
    (s.tm.cmds.filter (fun d => d.conflicts c)).map (·.due)).foldl Nat.max 0 = start
  generalize hq : ((s.cycle + 16) :: NMap.get 0 (s.core (s.coreOf (teamOf s.cur))).busy ((engineOf c.op).getD 4) ::
    (s.tm.cmds.filter (fun d => d.conflicts c)).map (·.due)).foldl Nat.max 0 = q
  generalize hl : (match glob with | some va => s.firstAccess va + Config.promiseDelay s.freeN | none => 0) = lat
  generalize hp : q + rate + lat = p
  generalize hd : start + took.getD rate + lat + (if glob.isSome then Config.loadDelay (s.freeN + 1) else 0) = due
  have hs : s.cycle + 16 ≤ start ∧ (∀ d ∈ s.tm.cmds, d.conflicts c = true → d.due ≤ start) ∧
      ∀ d ∈ s.coreCmds (s.coreOf (teamOf s.cur)), d.2.sameEngine c = true → d.2.due ≤ start := by
    have m := (le_foldl_max ((s.cycle + 16) :: ((s.coreCmds (s.coreOf (teamOf s.cur))).filter (fun d => d.2.sameEngine c)).map (·.2.due) ++
      (s.tm.cmds.filter (fun d => d.conflicts c)).map (·.due)) 0).2
    rw [hst] at m
    exact ⟨m _ (List.mem_append_left _ (.head _)),
      fun d hd hc => m _ (List.mem_append_right _ (List.mem_map.mpr ⟨d, List.mem_filter.mpr ⟨hd, hc⟩, rfl⟩)),
      fun d hd hc => m _ (List.mem_append_left _ (.tail _ (List.mem_map.mpr ⟨d, List.mem_filter.mpr ⟨hd, hc⟩, rfl⟩)))⟩
  have hpl : s.cycle + 16 ≤ p ∧ ∀ d ∈ s.tm.cmds, d.conflicts c = true → d.due ≤ p := by
    have m := (le_foldl_max ((s.cycle + 16) :: NMap.get 0 (s.core (s.coreOf (teamOf s.cur))).busy ((engineOf c.op).getD 4) ::
      (s.tm.cmds.filter (fun d => d.conflicts c)).map (·.due)) 0).2
    rw [hq] at m
    refine ⟨?_, fun d hd hc => ?_⟩
    · have := m _ (.head _)
      omega
    · have := m _ (.tail _ (.tail _ (List.mem_map.mpr ⟨d, List.mem_filter.mpr ⟨hd, hc⟩, rfl⟩)))
      omega
  generalize hc : ({ c with
    id := s.nextCmd, strand := s.cur, asid := s.tm.asid, issue := s.cycle, pos := s.log.length, start := start, due := due,
    promise := pr.map (fun _ => p) } : Cmd) = c'
  generalize hu : (if pr.isSome then ({ s with nextCmd := s.nextCmd + 1, freeN := if glob.isSome then s.freeN + 2 else s.freeN } : State).updCore
      (s.coreOf (teamOf s.cur)) (fun K => { K with busy := NMap.set 0 K.busy ((engineOf c.op).getD 4) p })
    else { s with nextCmd := s.nextCmd + 1, freeN := if glob.isSome then s.freeN + 2 else s.freeN }) = u
  generalize hg : (fun T : Team => closes.foldl (fun T i => if T.shutter i == .t then T.setShutter i .cmd else T) { T with cmds := T.cmds ++ [c'] }) = g
  have e : s.enqueueD c closes rate glob pr took = pr.elim (u.setTm g) (fun r => (u.setTm g).setA r (BitVec.ofNat 64 p)) := by
    subst hg hu hc hd hp hq hl hst
    unfold State.enqueueD
    rw [if_neg (by omega)]
    cases pr <;> cases glob <;> rfl
  rw [e]
  clear e hst hp hd hq hl
  have hm : u.mem = s.mem ∧ u.strands = s.strands ∧ u.teams = s.teams ∧ u.cur = s.cur := by
    subst hu
    split <;> exact ⟨rfl, rfl, rfl, rfl⟩
  obtain ⟨h1, h2, h3, h4⟩ := hm
  have htm : u.tm = s.tm := by unfold State.tm State.team; rw [h3, h4]
  have hst : u.st = s.st := by unfold State.st State.strand; rw [h2, h4]
  have hT : { g s.tm with cmds := s.tm.cmds, shut := s.tm.shut } = s.tm ∧ (g s.tm).cmds = s.tm.cmds ++ [c'] := by
    have k := closes_frame closes { s.tm with cmds := s.tm.cmds ++ [c'] }
    subst hg
    exact ⟨congrArg (fun V : Team => { V with cmds := s.tm.cmds }) k, congrArg Team.cmds k⟩
  have hw : (u.setTm g).tm = g s.tm ∧ (u.setTm g).st = s.st ∧ (u.setTm g).mem = s.mem := by
    refine ⟨?_, hst, h1⟩
    have q := State.team_updTeam u (teamOf u.cur) g (teamOf u.cur)
    rw [if_pos rfl] at q
    rw [← htm]
    exact q
  generalize u.setTm g = w at hw ⊢
  obtain ⟨w1, w2, w3⟩ := hw
  have hx : ∀ x : State, x.mem = w.mem → x.tm = w.tm → { x.st with a := s.st.a } = s.st →
      (match pr with
        | some r => ∀ k, aNow x k = if k = r then BitVec.ofNat 64 p else aNow s k
        | none => x.st.a = s.st.a) → Enqueued s x c.op c.src c.dst c.n pr := by
    intro x x1 x2 x3 x4
    refine ⟨x1.trans w3, x3, by rw [x2, w1]; exact hT.1, c', by rw [x2, w1]; exact hT.2, ?_⟩
    subst hc
    refine ⟨rfl, rfl, rfl, rfl, rfl, rfl, hs.1, hs.2.1, hs.2.2, ?_⟩
    cases pr with
    | none => exact ⟨rfl, x4⟩
    | some r => exact ⟨p, rfl, hpl.1, hpl.2, x4⟩
  cases pr with
  | none => exact hx w rfl rfl (by rw [w2]) (by simp only [w2])
  | some r =>
    have q := (writesA_setA w r (BitVec.ofNat 64 p))
    refine hx (w.setA r (BitVec.ofNat 64 p)) rfl rfl ?_ ?_
    · have y := q.2.1
      have z := q.2.2.1
      rw [w2] at y z
      have z' : (w.setA r (BitVec.ofNat 64 p)).st.flags = s.st.flags := by simpa using z
      rw [← z'] at y
      exact y
    · intro k
      have y := q.2.2.2 k
      rw [y]
      split
      · rfl
      · unfold aNow; rw [w2]

/-- An operation that enters an M queue with room (R247, R309), an MST with the descriptors of its open panes set (R72). -/
theorem enqueueM_room (s : State) (o : MOp) (h : (s.core (s.coreOf (teamOf s.cur))).mq.length < 8) :
    ∃ u, u = { o with strand := s.cur, ready := s.cycle + 1, before := s.nextCmd, descs := s.tm.openDescs o } ∧
      s.enqueueM o = (if (mstDesc o.op).isSome then s.updTeam (teamOf s.cur) (fun T => T.seenBy u) else s).updCore
        (s.coreOf (teamOf s.cur)) (fun K => { K with mq := K.mq ++ [u] }) := by
  refine ⟨_, rfl, ?_⟩
  unfold State.enqueueM
  dsimp only
  rw [if_neg (by omega)]

/-- A strand with no store publishes nothing (R96). -/
theorem publication_nil (s : State) (k scope : Nat) (h : (s.strand k).stores = []) :
    ∃ u, s.publication k scope = (u, none) ∧ { u with strands := s.strands } = s ∧ ∀ j, u.strand j = s.strand j := by
  refine ⟨s.markPublished k scope [], ?_, rfl, fun j => ?_⟩
  · have e : (s.strand k).toPublish scope = [] := by simp [Strand.toPublish, h]
    unfold State.publication
    rw [e]
    rfl
  · unfold State.markPublished
    rw [State.strand_updStrand]
    split
    · next hj =>
      subst hj
      have e : ∀ (st : Strand) (l : List (Nat × Option OwnStore)), st.stores = [] → l = [] → { st with stores := l } = st := by
        intro st l h1 h2
        rw [h2, ← h1]
      exact e _ _ h (by rw [h]; rfl)
    · rfl

/-- A strand with no store has nothing to publish. -/
theorem toPublish_nil (st : Strand) (scope : Nat) (h : st.stores = []) : st.toPublish scope = [] := by simp [Strand.toPublish, h]

/-- An instruction that publishes first, of a strand with no store, that waits for nothing and finds nothing wrong: it retires, and its request
is one more outstanding entry of the strand (R102, R307, R414). -/
theorem request_nil (s : State) (scope tail : Nat) (check : State → Option TrapRec) (dest : PendDest) (r : Request) (h : s.st.stores = [])
    (hw : s.boundaryWaits scope = false) (hc : ∀ u, { u with strands := s.strands } = s → check u = none) :
    s.request scope tail check dest r = s.setSt (fun st => { st with pend := st.pend ++ [{
      global := false, dest := dest, value := 0, done := false,
      due := Nat.max (s.cycle + s.boundaryTime scope (s.st.sectors scope) - tail) s.st.reqsDue, pc := s.rs.pc, rep := s.rs.rep,
      req := some r, scope := scope, stores := st.toPublish scope }] }) := by
  obtain ⟨u, hu, h1, h2⟩ := publication_nil s s.cur scope h
  have hf : u.freeN = s.freeN := by
    have e := congrArg State.freeN h1
    exact e
  have hs : { s with freeN := u.freeN } = s := by rw [hf]
  unfold State.request
  rw [if_neg (by simp [hw]), hu]
  dsimp only
  rw [hc u h1, hs]

/-- An instruction that carries a boundary, at its publication point: its effect (R414). -/
theorem atBoundary_point (s : State) (scope tail : Nat) (effect kept : State → State) (h : s.st.bnd.isSome = true)
    (hw : s.boundaryWaits scope = false) : s.atBoundary scope tail effect kept = effect s := by
  unfold State.atBoundary
  rw [if_neg (by simp [hw])]
  split
  · rfl
  · next e => rw [e] at h; cases h

/-- The same on its first issue, of a strand with no store to publish: it waits for its publication point (R96, R414). -/
theorem atBoundary_first (s : State) (scope tail : Nat) (effect kept : State → State) (h : s.st.bnd = none)
    (hw : s.boundaryWaits scope = false) (hk : ((kept s).strand s.cur).stores = []) (hn : (kept s).freeN = s.freeN) :
    s.atBoundary scope tail effect kept = s.block (.until ((kept s).pubPoint scope tail)) := by
  obtain ⟨u, hu, h1, _⟩ := publication_nil (kept s) s.cur scope hk
  have hf : u.freeN = s.freeN := by
    have e := congrArg State.freeN h1
    exact e.trans hn
  have hs : { s with freeN := u.freeN } = s := by rw [hf]
  unfold State.atBoundary
  rw [if_neg (by simp [hw]), h]
  dsimp only
  rw [hu]
  dsimp only
  rw [hs]

end Sys2Proof
end

