-- ==== Sys2Proof/Tests/Slice0.lean ====
section
/-! SUPPORT. Tests: ill-formed terms that the check refuses; words written out from the encodings of the spec and the instructions they
decode to; single steps with results from the spec; and, for each statement, a state and operands that meet its hypotheses. -/

namespace Sys2Proof.Tests

open Sys2Proof Sys2Proof.Machine

set_option Elab.async false

/-- The decoder reads the words as the instruction. -/
def decodesAs (p : Nat × List Nat × Instr) : Bool := match decodeSlot p.1 p.2.1 with | .ok i => i == p.2.2 | .error _ => false
/-- The encoder writes the words, and the instruction is well formed and stands in the slot. -/
def encodesTo (p : Nat × List Nat × Instr) : Bool := encode p.2.2 == p.2.1 && wf p.2.2 && slotOf p.2.2 == some p.1

/-! ### Ill-formed terms -/

def illFormed1 : List Instr :=
  [.pbr { g := 128, k := 3, disp := 32767 },
   .pbr { g := 5, k := 8, disp := 32767 },
   .pbr { g := 5, k := 3, disp := 32768 },
   .pbrx { g := 5, d := 8, a := 17, b := 0 },
   .pbrx { g := 5, d := 7, a := 17, b := 1 },
   .br { g := 5, d := 1, a := 6, b := 0 },
   .br { g := 5, d := 0, a := 8, b := 0 },
   .br { g := 5, d := 0, a := 6, b := 1 },
   .brl { g := 5, d := 1, a := 6, b := 0 },
   .brl { g := 5, d := 0, a := 8, b := 0 },
   .brl { g := 5, d := 0, a := 6, b := 1 },
   .loopm { g := 5, cnt := 16, last := 2748 },
   .lexit { g := 5, imm := 4 },
   .sleep { g := 5, d := 1, a := 17, b := 1 },
   .sleep { g := 5, d := 0, a := 17, b := 2 },
   .waitp { g := 5, imm := 65536 },
   .waitp { g := 5, imm := 0 },
   .bar { g := 5, imm := 2 },
   .phase { g := 5, imm := 4 },
   .tret { g := 5, imm := 1 },
   .sret { g := 5, imm := 1 },
   .exit { g := 5, imm := 1 },
   .yield { g := 5, imm := 1 },
   .pmov { pd := 100, pa := 70, pb := 1, part := 1 },
   .abs { g := 65, d := 9, a := 17, b := 1 },
   .clz { g := 65, d := 9, a := 17, b := 1 },
   .ctz { g := 65, d := 9, a := 17, b := 1 },
   .popc { g := 65, d := 9, a := 17, b := 1 },
   .brev { g := 65, d := 9, a := 17, b := 1 },
   .movi { g := 128, d := 9, imm := 4094 },
   .movi { g := 65, d := 64, imm := 4094 },
   .movi { g := 65, d := 9, imm := 4096 },
   .movl { g := 65, d := 9, a := 1, b := 1, imm := 2309737967 },
   .movl { g := 65, d := 9, a := 0, b := 2, imm := 2309737967 },
   .addi { g := 65, d := 9, a := 17, b := 1, imm := 4294967294 },
   .cmp { g := 65, d := 1, a := 17, b := 33, imm := 131556 },
   .cmp { g := 65, d := 0, a := 17, b := 33, imm := 262144 },
   .cmp { g := 65, d := 0, a := 17, b := 33, imm := 180352 },
   .cmp { g := 65, d := 0, a := 17, b := 33, imm := 645 },
   .cmpi { g := 65, d := 1, a := 17, b := 0, imm := 4294476260 },
   .cmpi { g := 65, d := 0, a := 17, b := 1, imm := 4294476260 },
   .cmpi { g := 65, d := 0, a := 17, b := 0, imm := 180352 },
   .cmpi { g := 65, d := 0, a := 17, b := 0, imm := 645 },
   .sel { g := 65, d := 9, a := 17, b := 33, imm := 128 },
   .fcmp { g := 65, d := 1, a := 17, b := 33, imm := 82404 },
   .fcmp { g := 65, d := 0, a := 17, b := 33, imm := 262144 },
   .fcmp { g := 65, d := 0, a := 17, b := 33, imm := 98432 },
   .fcmp { g := 65, d := 0, a := 17, b := 33, imm := 645 },
   .ld { g := 65, d := 9, a := 17, b := 7, imm := 4294967288 },
   .st { g := 65, d := 9, a := 17, b := 1, imm := 16 },
   .ldx { g := 65, d := 9, a := 17, b := 7, imm := 16 },
   .stx { g := 65, d := 9, a := 17, b := 1, imm := 16 },
   .atom { g := 65, d := 9, a := 17, b := 33, imm := 1 },
   .atom { g := 65, d := 9, a := 17, b := 33, imm := 2304 },
   .cas { g := 65, d := 9, a := 17, b := 33, imm := 1 },
   .cas { g := 65, d := 9, a := 17, b := 33, imm := 256 },
   .csrr { g := 65, d := 9, a := 16, b := 1 },
   .csrw { g := 65, d := 17, a := 17, b := 1 },
   .csrw { g := 65, d := 9, a := 17, b := 0 },
   .mbxr { g := 65, d := 9, a := 16, b := 0 }]

theorem test_ill_formed_1 : illFormed1.all (fun i => !wf i) = true := by decide +kernel

def illFormed2 : List Instr :=
  [.mbxr { g := 65, d := 9, a := 13, b := 1 },
   .mbxw { g := 65, d := 1, a := 17, b := 33 },
   .cyc { g := 65, d := 9, a := 1, b := 0 },
   .cyc { g := 65, d := 9, a := 0, b := 1 },
   .xmovaB { g := 65, d := 8, a := 17, b := 0 },
   .xmovaB { g := 65, d := 6, a := 17, b := 1 },
   .xmovaV { g := 65, d := 9, a := 17, b := 2 },
   .xmovaPair { g := 65, d := 9, a := 17, b := 3 },
   .wget { g := 65, d := 9, a := 63, b := 1 },
   .wrange { g := 65, d := 1, a := 17, b := 33 },
   .fcvt { g := 65, d := 9, a := 17, b := 10 },
   .vabs { bay := 2, g := 100, d := 9, a := 17, b := 1 },
   .vclz { bay := 2, g := 100, d := 9, a := 17, b := 1 },
   .vpopc { bay := 2, g := 100, d := 9, a := 17, b := 1 },
   .vmovi { bay := 8, g := 100, d := 9, imm := 4094 },
   .vmovi { bay := 2, g := 128, d := 9, imm := 4094 },
   .vmovi { bay := 2, g := 100, d := 64, imm := 4094 },
   .vmovi { bay := 2, g := 100, d := 9, imm := 4096 },
   .vfabs { bay := 2, g := 100, d := 9, a := 17, b := 1 },
   .vfneg { bay := 2, g := 100, d := 9, a := 17, b := 1 },
   .vfcvt { bay := 2, g := 100, d := 9, a := 17, b := 12 },
   .vrcp { bay := 2, g := 100, d := 9, a := 17, b := 1 },
   .vrsq { bay := 2, g := 100, d := 9, a := 17, b := 1 },
   .vexp2 { bay := 2, g := 100, d := 9, a := 17, b := 1 },
   .vlog2 { bay := 2, g := 100, d := 9, a := 17, b := 1 },
   .vred { bay := 2, g := 100, d := 9, a := 17, b := 11 },
   .vscan { bay := 2, g := 100, d := 9, a := 17, b := 32 },
   .vscan { bay := 2, g := 100, d := 9, a := 17, b := 11 },
   .vcntp { bay := 2, g := 100, d := 9, a := 17, b := 3 },
   .vlane { bay := 2, g := 100, d := 9, a := 1, b := 1 },
   .vlane { bay := 2, g := 100, d := 9, a := 0, b := 2 },
   .xmovvBay { bay := 2, g := 100, d := 9, a := 17, b := 8 },
   .xmovvAll { bay := 2, g := 100, d := 9, a := 17, b := 9 },
   .xmovvA { bay := 2, g := 100, d := 9, a := 17, b := 15 },
   .xmovvA { bay := 2, g := 100, d := 9, a := 17, b := 32 },
   .xmovvA2 { bay := 2, g := 100, d := 9, a := 17, b := 31 },
   .xmovvA2 { bay := 2, g := 100, d := 9, a := 17, b := 40 },
   .mma { g := 127, td := 21, wp := 1088, xp := 1023, kp := 9, int := 1 },
   .mma { g := 127, td := 21, wp := 1028, xp := 1536, kp := 9, int := 1 },
   .mmaz { g := 127, td := 21, wp := 1088, xp := 1023, kp := 9, int := 1 },
   .mmaz { g := 127, td := 21, wp := 1028, xp := 1536, kp := 9, int := 1 },
   .mmag { g := 127, td := 21, wp := 1088, xp := 1023, kp := 9, int := 1 },
   .mmag { g := 127, td := 21, wp := 1028, xp := 1536, kp := 9, int := 1 },
   .midx { g := 128, bay := 5, va := 42, half := 1 },
   .midx { g := 127, bay := 8, va := 42, half := 1 },
   .midx { g := 127, bay := 5, va := 64, half := 1 },
   .midx { g := 127, bay := 5, va := 42, half := 2 },
   .mld { g := 127, t := 21, xp := 1536, fmt := 0, sgeo := 0, tag := 0, cb := 0, chalf := 0, int := 0 },
   .mld { g := 127, t := 21, xp := 1023, fmt := 1, sgeo := 0, tag := 0, cb := 0, chalf := 0, int := 0 },
   .mld { g := 127, t := 21, xp := 1023, fmt := 0, sgeo := 1, tag := 0, cb := 0, chalf := 0, int := 0 },
   .mld { g := 127, t := 21, xp := 1023, fmt := 0, sgeo := 0, tag := 1, cb := 0, chalf := 0, int := 0 },
   .mld { g := 127, t := 21, xp := 1023, fmt := 0, sgeo := 0, tag := 0, cb := 1, chalf := 0, int := 0 },
   .mld { g := 127, t := 21, xp := 1023, fmt := 0, sgeo := 0, tag := 0, cb := 0, chalf := 1, int := 0 },
   .mld { g := 127, t := 21, xp := 1023, fmt := 0, sgeo := 0, tag := 0, cb := 0, chalf := 0, int := 1 },
   .mst { g := 127, t := 21, xp := 1536, fmt := 6, sgeo := 1, tag := 1, cb := 0, chalf := 0, int := 0 },
   .mzero { g := 127, td := 21, ta := 1, tb := 0, col := 0, mode := 2, int := 0, cnt := 7 },
   .mzero { g := 127, td := 21, ta := 0, tb := 1, col := 0, mode := 2, int := 0, cnt := 7 },
   .mzero { g := 127, td := 21, ta := 0, tb := 0, col := 1, mode := 2, int := 0, cnt := 7 },
   .mzero { g := 127, td := 21, ta := 0, tb := 0, col := 0, mode := 2, int := 1, cnt := 7 },
   .mzero { g := 127, td := 21, ta := 0, tb := 0, col := 0, mode := 3, int := 0, cnt := 7 }]

theorem test_ill_formed_2 : illFormed2.all (fun i => !wf i) = true := by decide +kernel

def illFormed3 : List Instr :=
  [.mtrn { g := 127, td := 21, ta := 10, tb := 1, col := 0, mode := 0, int := 0, cnt := 0 },
   .mtrn { g := 127, td := 21, ta := 10, tb := 0, col := 1, mode := 0, int := 0, cnt := 0 },
   .mtrn { g := 127, td := 21, ta := 10, tb := 0, col := 0, mode := 0, int := 1, cnt := 0 },
   .mtrn { g := 127, td := 21, ta := 10, tb := 0, col := 0, mode := 1, int := 0, cnt := 0 },
   .mtrn { g := 127, td := 21, ta := 10, tb := 0, col := 0, mode := 0, int := 0, cnt := 1 },
   .mrowmax { g := 127, td := 21, ta := 10, tb := 1, col := 45, mode := 1, int := 1, cnt := 0 },
   .mrowmax { g := 127, td := 21, ta := 10, tb := 0, col := 45, mode := 2, int := 1, cnt := 0 },
   .mrowmax { g := 127, td := 21, ta := 10, tb := 0, col := 45, mode := 1, int := 1, cnt := 1 },
   .mrowsum { g := 127, td := 21, ta := 10, tb := 1, col := 45, mode := 1, int := 0, cnt := 0 },
   .mrowsum { g := 127, td := 21, ta := 10, tb := 0, col := 45, mode := 2, int := 0, cnt := 0 },
   .mrowsum { g := 127, td := 21, ta := 10, tb := 0, col := 45, mode := 1, int := 0, cnt := 1 },
   .mscale { g := 127, td := 21, ta := 10, tb := 30, col := 45, mode := 3, int := 0, cnt := 0 },
   .mscale { g := 127, td := 21, ta := 10, tb := 30, col := 45, mode := 2, int := 1, cnt := 0 },
   .mscale { g := 127, td := 21, ta := 10, tb := 30, col := 45, mode := 2, int := 0, cnt := 1 },
   .maddt { g := 127, td := 21, ta := 10, tb := 30, col := 1, mode := 0, int := 1, cnt := 0 },
   .maddt { g := 127, td := 21, ta := 10, tb := 30, col := 0, mode := 1, int := 1, cnt := 0 },
   .maddt { g := 127, td := 21, ta := 10, tb := 30, col := 0, mode := 0, int := 1, cnt := 1 },
   .mwait { g := 128, one := 1, td := 21 },
   .mwait { g := 127, one := 2, td := 21 },
   .mwait { g := 127, one := 1, td := 32 },
   .dcopy { g := 127, ssp := 0, dsp := 2, src := 1029, dst := 8, np := 1, pr := 7, aux := 11, aux2 := 1, mod := 1 },
   .dcopy2 { g := 127, ssp := 0, dsp := 1, src := 1029, dst := 8, np := 15, pr := 7, aux := 11, aux2 := 0, mod := 1 },
   .dcopy2 { g := 127, ssp := 0, dsp := 1, src := 1029, dst := 8, np := 15, pr := 7, aux := 11, aux2 := 1, mod := 0 },
   .dgath { g := 127, ssp := 0, dsp := 2, src := 1029, dst := 8, np := 3, pr := 7, aux := 11, aux2 := 12, mod := 1 },
   .dgath { g := 127, ssp := 1, dsp := 2, src := 1029, dst := 8, np := 3, pr := 7, aux := 11, aux2 := 12, mod := 0 },
   .dgath { g := 127, ssp := 0, dsp := 3, src := 1029, dst := 8, np := 3, pr := 7, aux := 11, aux2 := 12, mod := 0 },
   .dfill { g := 127, ssp := 1, dsp := 2, src := 0, dst := 8, np := 3, pr := 7, aux := 11, aux2 := 12, mod := 1 },
   .dfill { g := 127, ssp := 0, dsp := 2, src := 1, dst := 8, np := 3, pr := 7, aux := 11, aux2 := 12, mod := 1 },
   .dtbl { g := 127, ssp := 2, dsp := 2, src := 3, dst := 8, np := 3, pr := 7, aux := 11, aux2 := 6, mod := 1 },
   .dtbl { g := 127, ssp := 3, dsp := 2, src := 3, dst := 8, np := 3, pr := 7, aux := 11, aux2 := 6, mod := 0 },
   .dtbl { g := 127, ssp := 2, dsp := 3, src := 3, dst := 8, np := 3, pr := 7, aux := 11, aux2 := 6, mod := 0 },
   .dtbl { g := 127, ssp := 2, dsp := 2, src := 3, dst := 8, np := 3, pr := 7, aux := 11, aux2 := 8, mod := 0 },
   .dtblld { g := 127, rd := 9, ra := 17, rb := 1, rc := 0, sub := 3, pt := 0 },
   .dtblld { g := 127, rd := 9, ra := 17, rb := 0, rc := 1, sub := 3, pt := 0 },
   .dtblld { g := 127, rd := 9, ra := 17, rb := 0, rc := 0, sub := 3, pt := 1 },
   .dtblld { g := 127, rd := 9, ra := 17, rb := 0, rc := 0, sub := 4, pt := 0 },
   .dpref { g := 127, rd := 1, ra := 17, rb := 33, rc := 0, sub := 0, pt := 0 },
   .dpref { g := 127, rd := 0, ra := 17, rb := 33, rc := 1, sub := 0, pt := 0 },
   .dpref { g := 127, rd := 0, ra := 17, rb := 33, rc := 0, sub := 0, pt := 1 },
   .dpref { g := 127, rd := 0, ra := 17, rb := 33, rc := 0, sub := 1, pt := 0 },
   .dflush { g := 127, rd := 1, ra := 17, rb := 33, rc := 0, sub := 1, pt := 0 },
   .dflush { g := 127, rd := 0, ra := 17, rb := 33, rc := 1, sub := 1, pt := 0 },
   .dflush { g := 127, rd := 0, ra := 17, rb := 33, rc := 0, sub := 1, pt := 1 },
   .dflush { g := 127, rd := 0, ra := 17, rb := 33, rc := 0, sub := 2, pt := 0 },
   .shut { g := 127, ssp := 1, dsp := 1, src := 0, dst := 8, np := 3, pr := 7, aux := 0, aux2 := 0, mod := 0 },
   .shut { g := 127, ssp := 0, dsp := 1, src := 1, dst := 8, np := 3, pr := 7, aux := 0, aux2 := 0, mod := 0 },
   .shut { g := 127, ssp := 0, dsp := 1, src := 0, dst := 8, np := 3, pr := 7, aux := 1, aux2 := 0, mod := 0 },
   .shut { g := 127, ssp := 0, dsp := 1, src := 0, dst := 8, np := 3, pr := 7, aux := 0, aux2 := 1, mod := 0 },
   .shut { g := 127, ssp := 0, dsp := 1, src := 0, dst := 8, np := 3, pr := 7, aux := 0, aux2 := 0, mod := 1 },
   .openp { g := 127, ssp := 1, dsp := 2, src := 0, dst := 8, np := 3, pr := 0, aux := 0, aux2 := 2, mod := 0 },
   .openp { g := 127, ssp := 0, dsp := 2, src := 1, dst := 8, np := 3, pr := 0, aux := 0, aux2 := 2, mod := 0 },
   .openp { g := 127, ssp := 0, dsp := 2, src := 0, dst := 8, np := 3, pr := 1, aux := 0, aux2 := 2, mod := 0 },
   .openp { g := 127, ssp := 0, dsp := 2, src := 0, dst := 8, np := 3, pr := 0, aux := 1, aux2 := 2, mod := 0 },
   .openp { g := 127, ssp := 0, dsp := 2, src := 0, dst := 8, np := 3, pr := 0, aux := 0, aux2 := 3, mod := 0 },
   .openp { g := 127, ssp := 0, dsp := 2, src := 0, dst := 8, np := 3, pr := 0, aux := 0, aux2 := 2, mod := 1 },
   .enq { g := 127, rd := 1, ra := 17, rb := 33, rc := 0, sub := 0, pt := 0 },
   .enq { g := 127, rd := 0, ra := 17, rb := 33, rc := 1, sub := 0, pt := 0 },
   .enq { g := 127, rd := 0, ra := 17, rb := 33, rc := 0, sub := 0, pt := 1 },
   .enq { g := 127, rd := 0, ra := 17, rb := 33, rc := 0, sub := 1, pt := 0 },
   .deq { g := 127, rd := 1, ra := 17, rb := 33, rc := 0, sub := 0, pt := 0 }]

theorem test_ill_formed_3 : illFormed3.all (fun i => !wf i) = true := by decide +kernel

def illFormed4 : List Instr :=
  [.deq { g := 127, rd := 0, ra := 17, rb := 33, rc := 1, sub := 0, pt := 0 },
   .deq { g := 127, rd := 0, ra := 17, rb := 33, rc := 0, sub := 0, pt := 1 },
   .deq { g := 127, rd := 0, ra := 17, rb := 33, rc := 0, sub := 1, pt := 0 },
   .deqNb { g := 127, rd := 1, ra := 17, rb := 33, rc := 0, sub := 1, pt := 100 },
   .deqNb { g := 127, rd := 0, ra := 17, rb := 33, rc := 1, sub := 1, pt := 100 },
   .deqNb { g := 127, rd := 0, ra := 17, rb := 33, rc := 0, sub := 2, pt := 100 },
   .qctlOpen { g := 127, rd := 9, ra := 17, rb := 33, rc := 1, sub := 0, pt := 0 },
   .qctlOpen { g := 127, rd := 9, ra := 17, rb := 33, rc := 0, sub := 0, pt := 1 },
   .qctlOpen { g := 127, rd := 9, ra := 17, rb := 33, rc := 0, sub := 1, pt := 0 },
   .qctlClose { g := 127, rd := 9, ra := 17, rb := 0, rc := 1, sub := 1, pt := 0 },
   .qctlClose { g := 127, rd := 9, ra := 17, rb := 0, rc := 0, sub := 1, pt := 1 },
   .qctlClose { g := 127, rd := 9, ra := 17, rb := 0, rc := 0, sub := 2, pt := 0 },
   .qctlBackoff { g := 127, rd := 9, ra := 17, rb := 33, rc := 1, sub := 2, pt := 0 },
   .qctlBackoff { g := 127, rd := 9, ra := 17, rb := 33, rc := 0, sub := 2, pt := 1 },
   .qctlBackoff { g := 127, rd := 9, ra := 17, rb := 33, rc := 0, sub := 3, pt := 0 },
   .qctlDepth { g := 127, rd := 9, ra := 17, rb := 0, rc := 1, sub := 3, pt := 0 },
   .qctlDepth { g := 127, rd := 9, ra := 17, rb := 0, rc := 0, sub := 3, pt := 1 },
   .qctlDepth { g := 127, rd := 9, ra := 17, rb := 0, rc := 0, sub := 4, pt := 0 },
   .tsub { g := 127, rd := 9, ra := 17, rb := 1, rc := 0, sub := 0, pt := 0 },
   .tsub { g := 127, rd := 9, ra := 17, rb := 0, rc := 1, sub := 0, pt := 0 },
   .tsub { g := 127, rd := 9, ra := 17, rb := 0, rc := 0, sub := 0, pt := 1 },
   .tsub { g := 127, rd := 9, ra := 17, rb := 0, rc := 0, sub := 1, pt := 0 },
   .launch { g := 127, rd := 9, ra := 17, rb := 33, rc := 50, sub := 0, pt := 1 },
   .launch { g := 127, rd := 9, ra := 17, rb := 33, rc := 50, sub := 1, pt := 0 },
   .jraise { g := 127, rd := 1, ra := 17, rb := 33, rc := 0, sub := 0, pt := 0 },
   .jraise { g := 127, rd := 0, ra := 17, rb := 33, rc := 1, sub := 0, pt := 0 },
   .jraise { g := 127, rd := 0, ra := 17, rb := 33, rc := 0, sub := 0, pt := 1 },
   .jraise { g := 127, rd := 0, ra := 17, rb := 33, rc := 0, sub := 1, pt := 0 },
   .jwait { g := 127, rd := 9, ra := 17, rb := 1, rc := 0, sub := 0, pt := 0 },
   .jwait { g := 127, rd := 9, ra := 17, rb := 0, rc := 1, sub := 0, pt := 0 },
   .jwait { g := 127, rd := 9, ra := 17, rb := 0, rc := 0, sub := 0, pt := 1 },
   .jwait { g := 127, rd := 9, ra := 17, rb := 0, rc := 0, sub := 1, pt := 0 },
   .jdone { g := 127, rd := 1, ra := 17, rb := 33, rc := 0, sub := 0, pt := 0 },
   .jdone { g := 127, rd := 0, ra := 17, rb := 33, rc := 1, sub := 0, pt := 0 },
   .jdone { g := 127, rd := 0, ra := 17, rb := 33, rc := 0, sub := 0, pt := 1 },
   .jdone { g := 127, rd := 0, ra := 17, rb := 33, rc := 0, sub := 1, pt := 0 },
   .jflags { g := 127, rd := 9, ra := 17, rb := 1, rc := 0, sub := 0, pt := 0 },
   .jflags { g := 127, rd := 9, ra := 17, rb := 0, rc := 1, sub := 0, pt := 0 },
   .jflags { g := 127, rd := 9, ra := 17, rb := 0, rc := 0, sub := 0, pt := 1 },
   .jflags { g := 127, rd := 9, ra := 17, rb := 0, rc := 0, sub := 1, pt := 0 },
   .rsend { g := 127, ssp := 1, dsp := 0, src := 8, dst := 0, np := 3, pr := 0, aux := 11, aux2 := 0, mod := 0 },
   .rsend { g := 127, ssp := 2, dsp := 1, src := 8, dst := 0, np := 3, pr := 0, aux := 11, aux2 := 0, mod := 0 },
   .rsend { g := 127, ssp := 2, dsp := 0, src := 8, dst := 1, np := 3, pr := 0, aux := 11, aux2 := 0, mod := 0 },
   .rsend { g := 127, ssp := 2, dsp := 0, src := 8, dst := 0, np := 3, pr := 1, aux := 11, aux2 := 0, mod := 0 },
   .rsend { g := 127, ssp := 2, dsp := 0, src := 8, dst := 0, np := 3, pr := 0, aux := 11, aux2 := 1, mod := 0 },
   .rsend { g := 127, ssp := 2, dsp := 0, src := 8, dst := 0, np := 3, pr := 0, aux := 11, aux2 := 0, mod := 1 },
   .rrecv { g := 127, ssp := 1, dsp := 1, src := 0, dst := 8, np := 3, pr := 0, aux := 11, aux2 := 0, mod := 0 },
   .rrecv { g := 127, ssp := 0, dsp := 1, src := 1, dst := 8, np := 3, pr := 0, aux := 11, aux2 := 0, mod := 0 },
   .rrecv { g := 127, ssp := 0, dsp := 3, src := 0, dst := 8, np := 3, pr := 0, aux := 11, aux2 := 0, mod := 0 },
   .rrecv { g := 127, ssp := 0, dsp := 1, src := 0, dst := 8, np := 3, pr := 1, aux := 11, aux2 := 0, mod := 0 },
   .rrecv { g := 127, ssp := 0, dsp := 1, src := 0, dst := 8, np := 3, pr := 0, aux := 11, aux2 := 1, mod := 0 },
   .rrecv { g := 127, ssp := 0, dsp := 1, src := 0, dst := 8, np := 3, pr := 0, aux := 11, aux2 := 0, mod := 1 },
   .pfxlook { g := 127, rd := 9, ra := 17, rb := 33, rc := 1, sub := 0, pt := 0 },
   .pfxlook { g := 127, rd := 9, ra := 17, rb := 33, rc := 0, sub := 0, pt := 1 },
   .pfxlook { g := 127, rd := 9, ra := 17, rb := 33, rc := 0, sub := 1, pt := 0 },
   .pfxins { g := 127, rd := 9, ra := 17, rb := 33, rc := 50, sub := 0, pt := 1 },
   .pfxins { g := 127, rd := 9, ra := 17, rb := 33, rc := 50, sub := 1, pt := 0 },
   .trim { g := 127, rd := 1, ra := 17, rb := 33, rc := 0, sub := 0, pt := 0 },
   .trim { g := 127, rd := 0, ra := 17, rb := 33, rc := 1, sub := 0, pt := 0 },
   .trim { g := 127, rd := 0, ra := 17, rb := 33, rc := 0, sub := 0, pt := 1 }]

theorem test_ill_formed_4 : illFormed4.all (fun i => !wf i) = true := by decide +kernel

def illFormed5 : List Instr :=
  [.trim { g := 127, rd := 0, ra := 17, rb := 33, rc := 0, sub := 1, pt := 0 },
   .pin { g := 127, rd := 1, ra := 17, rb := 33, rc := 0, sub := 1, pt := 0 },
   .pin { g := 127, rd := 0, ra := 17, rb := 33, rc := 1, sub := 1, pt := 0 },
   .pin { g := 127, rd := 0, ra := 17, rb := 33, rc := 0, sub := 1, pt := 1 },
   .pin { g := 127, rd := 0, ra := 17, rb := 33, rc := 0, sub := 2, pt := 0 },
   .stopen { g := 127, rd := 9, ra := 17, rb := 1, rc := 0, sub := 0, pt := 0 },
   .stopen { g := 127, rd := 9, ra := 17, rb := 0, rc := 1, sub := 0, pt := 0 },
   .stopen { g := 127, rd := 9, ra := 17, rb := 0, rc := 0, sub := 0, pt := 1 },
   .stopen { g := 127, rd := 9, ra := 17, rb := 0, rc := 0, sub := 1, pt := 0 },
   .stclose { g := 127, rd := 9, ra := 17, rb := 1, rc := 0, sub := 0, pt := 0 },
   .stclose { g := 127, rd := 9, ra := 17, rb := 0, rc := 1, sub := 0, pt := 0 },
   .stclose { g := 127, rd := 9, ra := 17, rb := 0, rc := 0, sub := 0, pt := 1 },
   .stclose { g := 127, rd := 9, ra := 17, rb := 0, rc := 0, sub := 1, pt := 0 },
   .strung { g := 127, rd := 9, ra := 17, rb := 1, rc := 0, sub := 0, pt := 0 },
   .strung { g := 127, rd := 9, ra := 17, rb := 0, rc := 1, sub := 0, pt := 0 },
   .strung { g := 127, rd := 9, ra := 17, rb := 0, rc := 0, sub := 0, pt := 1 },
   .strung { g := 127, rd := 9, ra := 17, rb := 0, rc := 0, sub := 1, pt := 0 },
   .frameRsv { g := 127, rd := 9, ra := 17, rb := 1, rc := 0, sub := 0, pt := 0 },
   .frameRsv { g := 127, rd := 9, ra := 17, rb := 0, rc := 1, sub := 0, pt := 0 },
   .frameRsv { g := 127, rd := 9, ra := 17, rb := 0, rc := 0, sub := 0, pt := 1 },
   .frameRsv { g := 127, rd := 9, ra := 17, rb := 0, rc := 0, sub := 1, pt := 0 },
   .framePub { g := 127, rd := 9, ra := 17, rb := 33, rc := 1, sub := 1, pt := 0 },
   .framePub { g := 127, rd := 9, ra := 17, rb := 33, rc := 0, sub := 1, pt := 1 },
   .framePub { g := 127, rd := 9, ra := 17, rb := 33, rc := 0, sub := 2, pt := 0 },
   .frameChk { g := 127, rd := 9, ra := 17, rb := 1, rc := 0, sub := 2, pt := 0 },
   .frameChk { g := 127, rd := 9, ra := 17, rb := 0, rc := 1, sub := 2, pt := 0 },
   .frameChk { g := 127, rd := 9, ra := 17, rb := 0, rc := 0, sub := 2, pt := 1 },
   .frameChk { g := 127, rd := 9, ra := 17, rb := 0, rc := 0, sub := 3, pt := 0 },
   .seedset { g := 127, rd := 1, ra := 17, rb := 33, rc := 0, sub := 0, pt := 0 },
   .seedset { g := 127, rd := 0, ra := 17, rb := 33, rc := 1, sub := 0, pt := 0 },
   .seedset { g := 127, rd := 0, ra := 17, rb := 33, rc := 0, sub := 0, pt := 1 },
   .seedset { g := 127, rd := 0, ra := 17, rb := 33, rc := 0, sub := 1, pt := 0 },
   .cbset { g := 127, rd := 1, ra := 17, rb := 33, rc := 0, sub := 0, pt := 0 },
   .cbset { g := 127, rd := 0, ra := 17, rb := 33, rc := 1, sub := 0, pt := 0 },
   .cbset { g := 127, rd := 0, ra := 17, rb := 33, rc := 0, sub := 0, pt := 1 },
   .cbset { g := 127, rd := 0, ra := 17, rb := 33, rc := 0, sub := 1, pt := 0 },
   .xlinvRng { g := 127, rd := 1, ra := 17, rb := 33, rc := 50, sub := 0, pt := 0 },
   .xlinvRng { g := 127, rd := 0, ra := 17, rb := 33, rc := 50, sub := 0, pt := 1 },
   .xlinvRng { g := 127, rd := 0, ra := 17, rb := 33, rc := 50, sub := 1, pt := 0 },
   .xlinvAsid { g := 127, rd := 1, ra := 17, rb := 0, rc := 0, sub := 1, pt := 0 },
   .xlinvAsid { g := 127, rd := 0, ra := 17, rb := 0, rc := 0, sub := 1, pt := 1 },
   .xlinvAsid { g := 127, rd := 0, ra := 17, rb := 0, rc := 0, sub := 2, pt := 0 },
   .xlinvAll { g := 127, rd := 1, ra := 0, rb := 0, rc := 0, sub := 2, pt := 0 },
   .xlinvAll { g := 127, rd := 0, ra := 0, rb := 0, rc := 0, sub := 2, pt := 1 },
   .xlinvAll { g := 127, rd := 0, ra := 0, rb := 0, rc := 0, sub := 3, pt := 0 },
   .crset { g := 127, rd := 9, ra := 17, rb := 1, rc := 0, sub := 0, pt := 0 },
   .crset { g := 127, rd := 9, ra := 17, rb := 0, rc := 1, sub := 0, pt := 0 },
   .crset { g := 127, rd := 9, ra := 17, rb := 0, rc := 0, sub := 0, pt := 1 },
   .crset { g := 127, rd := 9, ra := 17, rb := 0, rc := 0, sub := 1, pt := 0 },
   .add { g := 128, d := 9, a := 17, b := 33 },
   .add { g := 65, d := 64, a := 17, b := 33 },
   .add { g := 65, d := 9, a := 64, b := 33 },
   .add { g := 65, d := 9, a := 17, b := 64 },
   .cmp { g := 128, d := 0, a := 17, b := 33, imm := 131556 },
   .addi { g := 128, d := 9, a := 17, b := 0, imm := 4294967294 },
   .addi { g := 65, d := 64, a := 17, b := 0, imm := 4294967294 },
   .addi { g := 65, d := 9, a := 64, b := 0, imm := 4294967294 },
   .addi { g := 65, d := 9, a := 17, b := 0, imm := 4294967296 },
   .loop { g := 128, cnt := 40, last := 2748 },
   .loop { g := 5, cnt := 64, last := 2748 }]

theorem test_ill_formed_5 : illFormed5.all (fun i => !wf i) = true := by decide +kernel

def illFormed6 : List Instr :=
  [.loop { g := 5, cnt := 40, last := 4096 },
   .loop { g := 5, cnt := 40, last := 0 },
   .trap { g := 128, imm := 175053 },
   .trap { g := 5, imm := 262144 },
   .pand { pd := 128, pa := 70, pb := 9, part := 2 },
   .pand { pd := 100, pa := 128, pb := 9, part := 2 },
   .pand { pd := 100, pa := 70, pb := 128, part := 2 },
   .pand { pd := 100, pa := 70, pb := 9, part := 3 },
   .vadd { bay := 8, g := 100, d := 9, a := 17, b := 33 },
   .vadd { bay := 2, g := 128, d := 9, a := 17, b := 33 },
   .vadd { bay := 2, g := 100, d := 64, a := 17, b := 33 },
   .vadd { bay := 2, g := 100, d := 9, a := 64, b := 33 },
   .vadd { bay := 2, g := 100, d := 9, a := 17, b := 64 },
   .vcmp { bay := 8, cc := 3, pt := 100, pf := 9, a := 17, b := 33 },
   .vcmp { bay := 2, cc := 6, pt := 100, pf := 9, a := 17, b := 33 },
   .vcmp { bay := 2, cc := 3, pt := 128, pf := 9, a := 17, b := 33 },
   .vcmp { bay := 2, cc := 3, pt := 100, pf := 64, a := 17, b := 33 },
   .vcmp { bay := 2, cc := 3, pt := 100, pf := 9, a := 64, b := 33 },
   .vcmp { bay := 2, cc := 3, pt := 100, pf := 9, a := 17, b := 64 },
   .mma { g := 128, td := 21, wp := 1028, xp := 1023, kp := 9, int := 1 },
   .mma { g := 127, td := 32, wp := 1028, xp := 1023, kp := 9, int := 1 },
   .mma { g := 127, td := 21, wp := 1028, xp := 1023, kp := 16, int := 1 },
   .mma { g := 127, td := 21, wp := 1028, xp := 1023, kp := 9, int := 2 },
   .mst { g := 128, t := 21, xp := 1028, fmt := 6, sgeo := 1, tag := 1, cb := 0, chalf := 0, int := 0 },
   .mst { g := 127, t := 32, xp := 1028, fmt := 6, sgeo := 1, tag := 1, cb := 0, chalf := 0, int := 0 },
   .mst { g := 127, t := 21, xp := 1028, fmt := 0, sgeo := 1, tag := 1, cb := 0, chalf := 0, int := 0 },
   .mst { g := 127, t := 21, xp := 1028, fmt := 6, sgeo := 6, tag := 1, cb := 0, chalf := 0, int := 0 },
   .mst { g := 127, t := 21, xp := 1028, fmt := 6, sgeo := 1, tag := 1024, cb := 0, chalf := 0, int := 0 },
   .mst { g := 127, t := 21, xp := 1028, fmt := 6, sgeo := 1, tag := 1, cb := 4096, chalf := 0, int := 0 },
   .mst { g := 127, t := 21, xp := 1028, fmt := 6, sgeo := 1, tag := 1, cb := 0, chalf := 2, int := 0 },
   .mst { g := 127, t := 21, xp := 1028, fmt := 6, sgeo := 1, tag := 1, cb := 0, chalf := 0, int := 2 },
   .mscale { g := 128, td := 21, ta := 10, tb := 30, col := 45, mode := 2, int := 0, cnt := 0 },
   .mscale { g := 127, td := 32, ta := 10, tb := 30, col := 45, mode := 2, int := 0, cnt := 0 },
   .mscale { g := 127, td := 21, ta := 32, tb := 30, col := 45, mode := 2, int := 0, cnt := 0 },
   .mscale { g := 127, td := 21, ta := 10, tb := 32, col := 45, mode := 2, int := 0, cnt := 0 },
   .mscale { g := 127, td := 21, ta := 10, tb := 30, col := 64, mode := 2, int := 0, cnt := 0 },
   .mscale { g := 127, td := 21, ta := 10, tb := 30, col := 45, mode := 4, int := 0, cnt := 0 },
   .mscale { g := 127, td := 21, ta := 10, tb := 30, col := 45, mode := 2, int := 2, cnt := 0 },
   .mzero { g := 127, td := 21, ta := 0, tb := 0, col := 0, mode := 2, int := 0, cnt := 32 },
   .dcopy { g := 128, ssp := 0, dsp := 2, src := 1029, dst := 8, np := 1, pr := 7, aux := 11, aux2 := 0, mod := 1 },
   .dcopy { g := 127, ssp := 4, dsp := 2, src := 1029, dst := 8, np := 1, pr := 7, aux := 11, aux2 := 0, mod := 1 },
   .dcopy { g := 127, ssp := 0, dsp := 4, src := 1029, dst := 8, np := 1, pr := 7, aux := 11, aux2 := 0, mod := 1 },
   .dcopy { g := 127, ssp := 0, dsp := 2, src := 2048, dst := 8, np := 1, pr := 7, aux := 11, aux2 := 0, mod := 1 },
   .dcopy { g := 127, ssp := 0, dsp := 2, src := 1029, dst := 2048, np := 1, pr := 7, aux := 11, aux2 := 0, mod := 1 },
   .dcopy { g := 127, ssp := 0, dsp := 2, src := 1029, dst := 8, np := 16, pr := 7, aux := 11, aux2 := 0, mod := 1 },
   .dcopy { g := 127, ssp := 0, dsp := 2, src := 1029, dst := 8, np := 1, pr := 64, aux := 11, aux2 := 0, mod := 1 },
   .dcopy { g := 127, ssp := 0, dsp := 2, src := 1029, dst := 8, np := 1, pr := 7, aux := 64, aux2 := 0, mod := 1 },
   .dcopy { g := 127, ssp := 0, dsp := 2, src := 1029, dst := 8, np := 1, pr := 7, aux := 11, aux2 := 64, mod := 1 },
   .dcopy { g := 127, ssp := 0, dsp := 2, src := 1029, dst := 8, np := 1, pr := 7, aux := 11, aux2 := 0, mod := 2 },
   .qctlOpen { g := 128, rd := 9, ra := 17, rb := 33, rc := 0, sub := 0, pt := 0 },
   .qctlOpen { g := 127, rd := 64, ra := 17, rb := 33, rc := 0, sub := 0, pt := 0 },
   .qctlOpen { g := 127, rd := 9, ra := 64, rb := 33, rc := 0, sub := 0, pt := 0 },
   .qctlOpen { g := 127, rd := 9, ra := 17, rb := 64, rc := 0, sub := 0, pt := 0 },
   .deqNb { g := 127, rd := 0, ra := 17, rb := 33, rc := 0, sub := 1, pt := 128 },
   .vcmp { bay := 0, cc := 0, pt := 3, pf := 3, a := 0, b := 0 },
   .mwait { g := 0, one := 0, td := 1 },
   .mst { g := 0, t := 0, xp := 0, fmt := 6, sgeo := 0, tag := 0, cb := 0, chalf := 1, int := 0 },
   .mst { g := 0, t := 0, xp := 0, fmt := 6, sgeo := 0, tag := 0, cb := 1, chalf := 0, int := 0 },
   .mst { g := 0, t := 0, xp := 0, fmt := 1, sgeo := 1, tag := 0, cb := 0, chalf := 0, int := 0 },
   .mst { g := 0, t := 0, xp := 0, fmt := 7, sgeo := 1, tag := 0, cb := 0, chalf := 0, int := 0 }]

theorem test_ill_formed_6 : illFormed6.all (fun i => !wf i) = true := by decide +kernel

def illFormed7 : List Instr :=
  [.mst { g := 0, t := 0, xp := 0, fmt := 8, sgeo := 0, tag := 1, cb := 0, chalf := 0, int := 1 },
   .mst { g := 0, t := 0, xp := 0, fmt := 8, sgeo := 0, tag := 0, cb := 0, chalf := 0, int := 0 },
   .mst { g := 0, t := 0, xp := 1088, fmt := 1, sgeo := 0, tag := 0, cb := 0, chalf := 0, int := 0 },
   .dcopy { g := 0, ssp := 0, dsp := 2, src := 1024, dst := 0, np := 0, pr := 0, aux := 1, aux2 := 0, mod := 0 },
   .dcopy { g := 0, ssp := 3, dsp := 2, src := 0, dst := 0, np := 0, pr := 0, aux := 0, aux2 := 0, mod := 0 },
   .dcopy { g := 0, ssp := 2, dsp := 0, src := 0, dst := 1024, np := 0, pr := 0, aux := 1, aux2 := 0, mod := 1 },
   .dcopy { g := 0, ssp := 2, dsp := 3, src := 0, dst := 0, np := 0, pr := 0, aux := 0, aux2 := 0, mod := 0 },
   .dcopy { g := 0, ssp := 0, dsp := 2, src := 1024, dst := 1536, np := 0, pr := 0, aux := 0, aux2 := 0, mod := 0 },
   .dcopy { g := 0, ssp := 1, dsp := 2, src := 1536, dst := 0, np := 0, pr := 0, aux := 0, aux2 := 0, mod := 0 },
   .dcopy { g := 0, ssp := 0, dsp := 2, src := 5, dst := 0, np := 0, pr := 0, aux := 0, aux2 := 0, mod := 0 },
   .dcopy { g := 0, ssp := 0, dsp := 3, src := 1024, dst := 64, np := 0, pr := 0, aux := 0, aux2 := 0, mod := 0 },
   .dcopy2 { g := 0, ssp := 0, dsp := 0, src := 1024, dst := 1024, np := 0, pr := 0, aux := 0, aux2 := 0, mod := 0 },
   .dcopy2 { g := 0, ssp := 0, dsp := 2, src := 1024, dst := 0, np := 0, pr := 0, aux := 0, aux2 := 1, mod := 0 },
   .dcopy2 { g := 0, ssp := 0, dsp := 2, src := 1024, dst := 0, np := 0, pr := 0, aux := 0, aux2 := 0, mod := 1 },
   .dgath { g := 0, ssp := 2, dsp := 2, src := 0, dst := 0, np := 0, pr := 0, aux := 0, aux2 := 0, mod := 0 },
   .dgath { g := 0, ssp := 0, dsp := 1, src := 1024, dst := 0, np := 0, pr := 0, aux := 0, aux2 := 0, mod := 0 },
   .dgath { g := 0, ssp := 0, dsp := 2, src := 1024, dst := 0, np := 0, pr := 0, aux := 0, aux2 := 0, mod := 1 },
   .dfill { g := 0, ssp := 1, dsp := 2, src := 0, dst := 0, np := 0, pr := 0, aux := 0, aux2 := 0, mod := 0 },
   .dfill { g := 0, ssp := 0, dsp := 2, src := 1, dst := 0, np := 0, pr := 0, aux := 0, aux2 := 0, mod := 0 },
   .dfill { g := 0, ssp := 0, dsp := 0, src := 0, dst := 1024, np := 0, pr := 0, aux := 0, aux2 := 0, mod := 1 },
   .dfill { g := 0, ssp := 0, dsp := 2, src := 0, dst := 0, np := 0, pr := 0, aux := 0, aux2 := 1, mod := 0 },
   .dtbl { g := 0, ssp := 1, dsp := 2, src := 0, dst := 0, np := 0, pr := 0, aux := 0, aux2 := 0, mod := 0 },
   .dtbl { g := 0, ssp := 2, dsp := 1, src := 0, dst := 0, np := 0, pr := 0, aux := 0, aux2 := 0, mod := 0 },
   .dtbl { g := 0, ssp := 2, dsp := 2, src := 0, dst := 0, np := 0, pr := 0, aux := 0, aux2 := 8, mod := 0 },
   .dtbl { g := 0, ssp := 2, dsp := 2, src := 0, dst := 0, np := 0, pr := 0, aux := 0, aux2 := 0, mod := 1 },
   .shut { g := 0, ssp := 1, dsp := 2, src := 0, dst := 0, np := 0, pr := 0, aux := 0, aux2 := 0, mod := 0 },
   .shut { g := 0, ssp := 0, dsp := 2, src := 1, dst := 0, np := 0, pr := 0, aux := 0, aux2 := 0, mod := 0 },
   .shut { g := 0, ssp := 0, dsp := 0, src := 0, dst := 1024, np := 0, pr := 0, aux := 0, aux2 := 0, mod := 0 },
   .shut { g := 0, ssp := 0, dsp := 2, src := 0, dst := 0, np := 0, pr := 0, aux := 1, aux2 := 0, mod := 0 },
   .shut { g := 0, ssp := 0, dsp := 2, src := 0, dst := 0, np := 0, pr := 0, aux := 0, aux2 := 1, mod := 0 },
   .shut { g := 0, ssp := 0, dsp := 2, src := 0, dst := 0, np := 0, pr := 0, aux := 0, aux2 := 0, mod := 1 },
   .openp { g := 0, ssp := 1, dsp := 2, src := 0, dst := 0, np := 0, pr := 0, aux := 0, aux2 := 0, mod := 0 },
   .openp { g := 0, ssp := 0, dsp := 2, src := 0, dst := 0, np := 0, pr := 1, aux := 0, aux2 := 0, mod := 0 },
   .openp { g := 0, ssp := 0, dsp := 2, src := 0, dst := 0, np := 0, pr := 0, aux := 0, aux2 := 3, mod := 0 },
   .openp { g := 0, ssp := 0, dsp := 3, src := 0, dst := 0, np := 0, pr := 0, aux := 0, aux2 := 0, mod := 0 },
   .rsend { g := 0, ssp := 1, dsp := 0, src := 0, dst := 0, np := 0, pr := 0, aux := 0, aux2 := 0, mod := 0 },
   .rsend { g := 0, ssp := 2, dsp := 2, src := 0, dst := 0, np := 0, pr := 0, aux := 0, aux2 := 0, mod := 0 },
   .rsend { g := 0, ssp := 2, dsp := 0, src := 0, dst := 1, np := 0, pr := 0, aux := 0, aux2 := 0, mod := 0 },
   .rsend { g := 0, ssp := 2, dsp := 0, src := 0, dst := 0, np := 0, pr := 1, aux := 0, aux2 := 0, mod := 0 },
   .rsend { g := 0, ssp := 2, dsp := 0, src := 0, dst := 0, np := 0, pr := 0, aux := 0, aux2 := 1, mod := 0 },
   .rsend { g := 0, ssp := 2, dsp := 0, src := 0, dst := 0, np := 0, pr := 0, aux := 0, aux2 := 0, mod := 1 },
   .rrecv { g := 0, ssp := 1, dsp := 2, src := 0, dst := 0, np := 0, pr := 0, aux := 0, aux2 := 0, mod := 0 },
   .rrecv { g := 0, ssp := 0, dsp := 2, src := 1, dst := 0, np := 0, pr := 0, aux := 0, aux2 := 0, mod := 0 },
   .rrecv { g := 0, ssp := 0, dsp := 3, src := 0, dst := 0, np := 0, pr := 0, aux := 0, aux2 := 0, mod := 0 },
   .rrecv { g := 0, ssp := 0, dsp := 2, src := 0, dst := 0, np := 0, pr := 1, aux := 0, aux2 := 0, mod := 0 },
   .rrecv { g := 0, ssp := 0, dsp := 2, src := 0, dst := 0, np := 0, pr := 0, aux := 0, aux2 := 0, mod := 1 }]

theorem test_ill_formed_7 : illFormed7.all (fun i => !wf i) = true := by decide +kernel

/-! ### Words written out from R125, R126, R139 to R143, R242, R243 and R300 -/

def wordsControl : List (Nat × List Nat × Instr) :=
  [(0, [0x0015FFFF], .pbr { g := 5, k := 3, disp := 32767 }),
   (0, [0x02147440], .pbrx { g := 5, d := 7, a := 17, b := 0 }),
   (0, [0x04140180], .br { g := 5, d := 0, a := 6, b := 0 }),
   (0, [0x06140180], .brl { g := 5, d := 0, a := 6, b := 0 }),
   (0, [0x08168ABC], .loop { g := 5, cnt := 40, last := 2748 }),
   (0, [0x0A17FABC], .loopi { g := 5, cnt := 63, last := 2748 }),
   (0, [0x0C14CABC], .loopm { g := 5, cnt := 12, last := 2748 }),
   (0, [0x0E140003], .lexit { g := 5, imm := 3 }),
   (0, [0x10140441], .sleep { g := 5, d := 0, a := 17, b := 1 }),
   (0, [0x12148001], .waitp { g := 5, imm := 32769 }),
   (0, [0x14140001], .bar { g := 5, imm := 1 }),
   (0, [0x16140002], .phase { g := 5, imm := 2 }),
   (0, [0x1816ABCD], .trap { g := 5, imm := 175053 }),
   (0, [0x1A140000], .tret { g := 5, imm := 0 }),
   (0, [0x1C140000], .sret { g := 5, imm := 0 }),
   (0, [0x1E140000], .exit { g := 5, imm := 0 }),
   (0, [0x20140000], .yield { g := 5, imm := 0 }),
   (0, [0x31923098], .pand { pd := 100, pa := 70, pb := 9, part := 2 }),
   (0, [0x33923098], .por { pd := 100, pa := 70, pb := 9, part := 2 }),
   (0, [0x35923098], .pxor { pd := 100, pa := 70, pb := 9, part := 2 }),
   (0, [0x37923098], .pandn { pd := 100, pa := 70, pb := 9, part := 2 }),
   (0, [0x39923098], .pany { pd := 100, pa := 70, pb := 9, part := 2 }),
   (0, [0x3B923098], .pall { pd := 100, pa := 70, pb := 9, part := 2 }),
   (0, [0x3D923004], .pmov { pd := 100, pa := 70, pb := 0, part := 1 })]

theorem test_decode_control : wordsControl.all decodesAs = true := by decide +kernel
theorem test_encode_control : wordsControl.all encodesTo = true := by decide +kernel

def wordsScalarA : List (Nat × List Nat × Instr) :=
  [(1, [0x01049461], .add { g := 65, d := 9, a := 17, b := 33 }),
   (1, [0x03049461], .sub { g := 65, d := 9, a := 17, b := 33 }),
   (1, [0x05049461], .mul { g := 65, d := 9, a := 17, b := 33 }),
   (1, [0x07049461], .mulh { g := 65, d := 9, a := 17, b := 33 }),
   (1, [0x09049461], .mulhu { g := 65, d := 9, a := 17, b := 33 }),
   (1, [0x0B049461], .div { g := 65, d := 9, a := 17, b := 33 }),
   (1, [0x0D049461], .divu { g := 65, d := 9, a := 17, b := 33 }),
   (1, [0x0F049461], .rem { g := 65, d := 9, a := 17, b := 33 }),
   (1, [0x11049461], .remu { g := 65, d := 9, a := 17, b := 33 }),
   (1, [0x13049461], .min { g := 65, d := 9, a := 17, b := 33 }),
   (1, [0x15049461], .max { g := 65, d := 9, a := 17, b := 33 }),
   (1, [0x17049461], .minu { g := 65, d := 9, a := 17, b := 33 }),
   (1, [0x19049461], .maxu { g := 65, d := 9, a := 17, b := 33 }),
   (1, [0x1B049440], .abs { g := 65, d := 9, a := 17, b := 0 }),
   (1, [0x21049461], .and { g := 65, d := 9, a := 17, b := 33 }),
   (1, [0x23049461], .or { g := 65, d := 9, a := 17, b := 33 }),
   (1, [0x25049461], .xor { g := 65, d := 9, a := 17, b := 33 }),
   (1, [0x27049461], .andn { g := 65, d := 9, a := 17, b := 33 }),
   (1, [0x29049461], .orn { g := 65, d := 9, a := 17, b := 33 }),
   (1, [0x2B049461], .shl { g := 65, d := 9, a := 17, b := 33 }),
   (1, [0x2D049461], .shr { g := 65, d := 9, a := 17, b := 33 }),
   (1, [0x2F049461], .sar { g := 65, d := 9, a := 17, b := 33 }),
   (1, [0x31049461], .rotl { g := 65, d := 9, a := 17, b := 33 }),
   (1, [0x33049461], .shli { g := 65, d := 9, a := 17, b := 33 })]

def wordsScalarB : List (Nat × List Nat × Instr) :=
  [(1, [0x35049461], .shri { g := 65, d := 9, a := 17, b := 33 }),
   (1, [0x37049461], .sari { g := 65, d := 9, a := 17, b := 33 }),
   (1, [0x41049440], .clz { g := 65, d := 9, a := 17, b := 0 }),
   (1, [0x43049440], .ctz { g := 65, d := 9, a := 17, b := 0 }),
   (1, [0x45049440], .popc { g := 65, d := 9, a := 17, b := 0 }),
   (1, [0x47049440], .brev { g := 65, d := 9, a := 17, b := 0 }),
   (1, [0x49049461], .bfx { g := 65, d := 9, a := 17, b := 33 }),
   (1, [0x4B049461], .bfxu { g := 65, d := 9, a := 17, b := 33 }),
   (1, [0x4D049461], .bfi { g := 65, d := 9, a := 17, b := 33 }),
   (1, [0x4F049461], .fshl { g := 65, d := 9, a := 17, b := 33 }),
   (1, [0x51049461], .fshr { g := 65, d := 9, a := 17, b := 33 }),
   (1, [0x61049FFE], .movi { g := 65, d := 9, imm := 4094 }),
   (1, [0x71049400], .csrr { g := 65, d := 9, a := 16, b := 0 }),
   (1, [0x73051440], .csrw { g := 65, d := 17, a := 17, b := 0 }),
   (1, [0x75049340], .mbxr { g := 65, d := 9, a := 13, b := 0 }),
   (1, [0x77040461], .mbxw { g := 65, d := 0, a := 17, b := 33 }),
   (1, [0x79049000], .cyc { g := 65, d := 9, a := 0, b := 0 }),
   (1, [0x7B046440], .xmovaB { g := 65, d := 6, a := 17, b := 0 }),
   (1, [0x7B049441], .xmovaV { g := 65, d := 9, a := 17, b := 1 }),
   (1, [0x7B049442], .xmovaPair { g := 65, d := 9, a := 17, b := 2 }),
   (1, [0x7D049FC0], .wget { g := 65, d := 9, a := 63, b := 0 }),
   (1, [0x7F040461], .wrange { g := 65, d := 0, a := 17, b := 33 }),
   (1, [0x91049461], .fadd { g := 65, d := 9, a := 17, b := 33 }),
   (1, [0x93049461], .fsub { g := 65, d := 9, a := 17, b := 33 })]

def wordsScalarC : List (Nat × List Nat × Instr) :=
  [(1, [0x95049461], .fmul { g := 65, d := 9, a := 17, b := 33 }),
   (1, [0x97049461], .ffma { g := 65, d := 9, a := 17, b := 33 }),
   (1, [0x99049443], .fcvt { g := 65, d := 9, a := 17, b := 3 }),
   (1, [0xC1049001, 0x89ABCDEF], .movl { g := 65, d := 9, a := 0, b := 1, imm := 2309737967 }),
   (1, [0xC3049440, 0xFFFFFFFE], .addi { g := 65, d := 9, a := 17, b := 0, imm := 4294967294 }),
   (1, [0xC5040461, 0x000201E4], .cmp { g := 65, d := 0, a := 17, b := 33, imm := 131556 }),
   (1, [0xC7040440, 0xFFF881E4], .cmpi { g := 65, d := 0, a := 17, b := 0, imm := 4294476260 }),
   (1, [0xC9049461, 0x0000007E], .sel { g := 65, d := 9, a := 17, b := 33, imm := 126 }),
   (1, [0xCB040461, 0x000141E4], .fcmp { g := 65, d := 0, a := 17, b := 33, imm := 82404 }),
   (1, [0xD1049445, 0xFFFFFFF8], .ld { g := 65, d := 9, a := 17, b := 5, imm := 4294967288 }),
   (1, [0xD3049446, 0x00000010], .st { g := 65, d := 9, a := 17, b := 6, imm := 16 }),
   (1, [0xD5049442, 0x00000010], .ldx { g := 65, d := 9, a := 17, b := 2, imm := 16 }),
   (1, [0xD7049440, 0x00000010], .stx { g := 65, d := 9, a := 17, b := 0, imm := 16 }),
   (1, [0xD9049461, 0xFFFF88E8], .atom { g := 65, d := 9, a := 17, b := 33, imm := 4294936808 }),
   (1, [0xDB049461, 0x00008070], .cas { g := 65, d := 9, a := 17, b := 33, imm := 32880 })]

theorem test_decode_scalara : wordsScalarA.all decodesAs = true := by decide +kernel
theorem test_encode_scalara : wordsScalarA.all encodesTo = true := by decide +kernel

theorem test_decode_scalarb : wordsScalarB.all decodesAs = true := by decide +kernel
theorem test_encode_scalarb : wordsScalarB.all encodesTo = true := by decide +kernel

theorem test_decode_scalarc : wordsScalarC.all decodesAs = true := by decide +kernel
theorem test_encode_scalarc : wordsScalarC.all encodesTo = true := by decide +kernel

def wordsVectorA : List (Nat × List Nat × Instr) :=
  [(4, [0x01909461], .vadd { bay := 2, g := 100, d := 9, a := 17, b := 33 }),
   (4, [0x03909461], .vsub { bay := 2, g := 100, d := 9, a := 17, b := 33 }),
   (4, [0x05909461], .vmul { bay := 2, g := 100, d := 9, a := 17, b := 33 }),
   (4, [0x07909461], .vmulh { bay := 2, g := 100, d := 9, a := 17, b := 33 }),
   (4, [0x09909461], .vmulhu { bay := 2, g := 100, d := 9, a := 17, b := 33 }),
   (4, [0x0B909461], .vmad { bay := 2, g := 100, d := 9, a := 17, b := 33 }),
   (4, [0x0D909461], .vmin { bay := 2, g := 100, d := 9, a := 17, b := 33 }),
   (4, [0x0F909461], .vmax { bay := 2, g := 100, d := 9, a := 17, b := 33 }),
   (4, [0x11909461], .vminu { bay := 2, g := 100, d := 9, a := 17, b := 33 }),
   (4, [0x13909461], .vmaxu { bay := 2, g := 100, d := 9, a := 17, b := 33 }),
   (4, [0x15909440], .vabs { bay := 2, g := 100, d := 9, a := 17, b := 0 }),
   (4, [0x21909461], .vand { bay := 2, g := 100, d := 9, a := 17, b := 33 }),
   (4, [0x23909461], .vor { bay := 2, g := 100, d := 9, a := 17, b := 33 }),
   (4, [0x25909461], .vxor { bay := 2, g := 100, d := 9, a := 17, b := 33 }),
   (4, [0x27909461], .vandn { bay := 2, g := 100, d := 9, a := 17, b := 33 }),
   (4, [0x29909461], .vshl { bay := 2, g := 100, d := 9, a := 17, b := 33 }),
   (4, [0x2B909461], .vshr { bay := 2, g := 100, d := 9, a := 17, b := 33 }),
   (4, [0x2D909461], .vsar { bay := 2, g := 100, d := 9, a := 17, b := 33 }),
   (4, [0x2F909461], .vbfx { bay := 2, g := 100, d := 9, a := 17, b := 33 }),
   (4, [0x31909461], .vbfxu { bay := 2, g := 100, d := 9, a := 17, b := 33 }),
   (4, [0x33909461], .vbfi { bay := 2, g := 100, d := 9, a := 17, b := 33 }),
   (4, [0x35909461], .vfshl { bay := 2, g := 100, d := 9, a := 17, b := 33 }),
   (4, [0x37909461], .vfshr { bay := 2, g := 100, d := 9, a := 17, b := 33 }),
   (4, [0x39909440], .vclz { bay := 2, g := 100, d := 9, a := 17, b := 0 })]

def wordsVectorB : List (Nat × List Nat × Instr) :=
  [(4, [0x3B909440], .vpopc { bay := 2, g := 100, d := 9, a := 17, b := 0 }),
   (4, [0x47909461], .vcmp { bay := 2, cc := 3, pt := 100, pf := 9, a := 17, b := 33 }),
   (4, [0x57909461], .vcmpi { bay := 2, cc := 3, pt := 100, pf := 9, a := 17, b := 33 }),
   (4, [0x67909461], .vfcmp { bay := 2, cc := 3, pt := 100, pf := 9, a := 17, b := 33 }),
   (4, [0x71909461], .vsel { bay := 2, g := 100, d := 9, a := 17, b := 33 }),
   (4, [0x73909FFE], .vmovi { bay := 2, g := 100, d := 9, imm := 4094 }),
   (4, [0x75909461], .vaddsat { bay := 2, g := 100, d := 9, a := 17, b := 33 }),
   (4, [0x77909461], .vsubsat { bay := 2, g := 100, d := 9, a := 17, b := 33 }),
   (4, [0x79909461], .vdot4 { bay := 2, g := 100, d := 9, a := 17, b := 33 }),
   (4, [0x7B909461], .vdot4s { bay := 2, g := 100, d := 9, a := 17, b := 33 }),
   (4, [0x7D009461], .vdot2 { bay := 2, g := 64, d := 9, a := 17, b := 33 }),
   (4, [0x81909461], .vfadd { bay := 2, g := 100, d := 9, a := 17, b := 33 }),
   (4, [0x83909461], .vfsub { bay := 2, g := 100, d := 9, a := 17, b := 33 }),
   (4, [0x85909461], .vfmul { bay := 2, g := 100, d := 9, a := 17, b := 33 }),
   (4, [0x87909461], .vfma { bay := 2, g := 100, d := 9, a := 17, b := 33 }),
   (4, [0x89909461], .vbfma { bay := 2, g := 100, d := 9, a := 17, b := 33 }),
   (4, [0x8B909461], .vfmin { bay := 2, g := 100, d := 9, a := 17, b := 33 }),
   (4, [0x8D909461], .vfmax { bay := 2, g := 100, d := 9, a := 17, b := 33 }),
   (4, [0x8F909440], .vfabs { bay := 2, g := 100, d := 9, a := 17, b := 0 }),
   (4, [0x91909440], .vfneg { bay := 2, g := 100, d := 9, a := 17, b := 0 }),
   (4, [0x93909441], .vfcvt { bay := 2, g := 100, d := 9, a := 17, b := 1 }),
   (4, [0x95909461], .vnrw { bay := 2, g := 100, d := 9, a := 17, b := 33 }),
   (4, [0x97909461], .vwdn { bay := 2, g := 100, d := 9, a := 17, b := 33 }),
   (4, [0xA1909440], .vrcp { bay := 2, g := 100, d := 9, a := 17, b := 0 })]

def wordsVectorC : List (Nat × List Nat × Instr) :=
  [(4, [0xA3909440], .vrsq { bay := 2, g := 100, d := 9, a := 17, b := 0 }),
   (4, [0xA5909440], .vexp2 { bay := 2, g := 100, d := 9, a := 17, b := 0 }),
   (4, [0xA7909440], .vlog2 { bay := 2, g := 100, d := 9, a := 17, b := 0 }),
   (4, [0xB1909461], .vld { bay := 2, g := 100, d := 9, a := 17, b := 33 }),
   (4, [0xB3909461], .vst { bay := 2, g := 100, d := 9, a := 17, b := 33 }),
   (4, [0xB5909461], .vldg { bay := 2, g := 100, d := 9, a := 17, b := 33 }),
   (4, [0xB7909461], .vsts { bay := 2, g := 100, d := 9, a := 17, b := 33 }),
   (4, [0xC1909461], .vshuf { bay := 2, g := 100, d := 9, a := 17, b := 33 }),
   (4, [0xC3909444], .vred { bay := 2, g := 100, d := 9, a := 17, b := 4 }),
   (4, [0xC5909454], .vscan { bay := 2, g := 100, d := 9, a := 17, b := 20 }),
   (4, [0xC7909442], .vcntp { bay := 2, g := 100, d := 9, a := 17, b := 2 }),
   (4, [0xC9909001], .vlane { bay := 2, g := 100, d := 9, a := 0, b := 1 }),
   (4, [0xCB909445], .xmovvBay { bay := 2, g := 100, d := 9, a := 17, b := 5 }),
   (4, [0xCB909448], .xmovvAll { bay := 2, g := 100, d := 9, a := 17, b := 8 }),
   (4, [0xCB90945F], .xmovvA { bay := 2, g := 100, d := 9, a := 17, b := 31 }),
   (4, [0xCB909467], .xmovvA2 { bay := 2, g := 100, d := 9, a := 17, b := 39 })]

theorem test_decode_vectora : wordsVectorA.all decodesAs = true := by decide +kernel
theorem test_encode_vectora : wordsVectorA.all encodesTo = true := by decide +kernel

theorem test_decode_vectorb : wordsVectorB.all decodesAs = true := by decide +kernel
theorem test_encode_vectorb : wordsVectorB.all encodesTo = true := by decide +kernel

theorem test_decode_vectorc : wordsVectorC.all decodesAs = true := by decide +kernel
theorem test_encode_vectorc : wordsVectorC.all encodesTo = true := by decide +kernel

def wordsMatrix : List (Nat × List Nat × Instr) :=
  [(10, [0xFFE60000, 0x00FF5808], .mma { g := 127, td := 21, wp := 1028, xp := 1023, kp := 9, int := 1 }),
   (10, [0xFFE60000, 0x01FF5808], .mmaz { g := 127, td := 21, wp := 1028, xp := 1023, kp := 9, int := 1 }),
   (10, [0xFFE60000, 0x02FF5808], .mmag { g := 127, td := 21, wp := 1028, xp := 1023, kp := 9, int := 1 }),
   (10, [0x00000000, 0x03FF6A80], .midx { g := 127, bay := 5, va := 42, half := 1 }),
   (10, [0x00000000, 0x08FF57FE], .mld { g := 127, t := 21, xp := 1023, fmt := 0, sgeo := 0, tag := 0, cb := 0, chalf := 0, int := 0 }),
   (10, [0xC4010000, 0x09FF5808], .mst { g := 127, t := 21, xp := 1028, fmt := 6, sgeo := 1, tag := 1, cb := 0, chalf := 0, int := 0 }),
   (10, [0x08700000, 0x0AFF5000], .mzero { g := 127, td := 21, ta := 0, tb := 0, col := 0, mode := 2, int := 0, cnt := 7 }),
   (10, [0x00000000, 0x0BFF5500], .mtrn { g := 127, td := 21, ta := 10, tb := 0, col := 0, mode := 0, int := 0, cnt := 0 }),
   (10, [0xD6000000, 0x10FF5502], .mrowmax { g := 127, td := 21, ta := 10, tb := 0, col := 45, mode := 1, int := 1, cnt := 0 }),
   (10, [0xD4000000, 0x11FF5502], .mrowsum { g := 127, td := 21, ta := 10, tb := 0, col := 45, mode := 1, int := 0, cnt := 0 }),
   (10, [0xD8000000, 0x12FF557A], .mscale { g := 127, td := 21, ta := 10, tb := 30, col := 45, mode := 2, int := 0, cnt := 0 }),
   (10, [0x02000000, 0x13FF5578], .maddt { g := 127, td := 21, ta := 10, tb := 30, col := 0, mode := 0, int := 1, cnt := 0 }),
   (10, [0x00000000, 0x18FFA800], .mwait { g := 127, one := 1, td := 21 })]

theorem test_decode_matrix : wordsMatrix.all decodesAs = true := by decide +kernel
theorem test_encode_matrix : wordsMatrix.all encodesTo = true := by decide +kernel

def wordsEngineA : List (Nat × List Nat × Instr) :=
  [(11, [0x0408E581, 0x00FE5014], .dcopy { g := 127, ssp := 0, dsp := 2, src := 1029, dst := 8, np := 1, pr := 7, aux := 11, aux2 := 0, mod := 1 }),
   (11, [0x0478E580, 0x01FE3014], .dcopy2 { g := 127, ssp := 0, dsp := 1, src := 1029, dst := 8, np := 15, pr := 7, aux := 11, aux2 := 0, mod := 0 }),
   (11, [0x0418E598, 0x02FE5014], .dgath { g := 127, ssp := 0, dsp := 2, src := 1029, dst := 8, np := 3, pr := 7, aux := 11, aux2 := 12, mod := 0 }),
   (11, [0x0418E599, 0x03FE4000], .dfill { g := 127, ssp := 0, dsp := 2, src := 0, dst := 8, np := 3, pr := 7, aux := 11, aux2 := 12, mod := 1 }),
   (11, [0x0418E58C, 0x04FF400C], .dtbl { g := 127, ssp := 2, dsp := 2, src := 3, dst := 8, np := 3, pr := 7, aux := 11, aux2 := 6, mod := 0 }),
   (11, [0x0418E000, 0x10FE2000], .shut { g := 127, ssp := 0, dsp := 1, src := 0, dst := 8, np := 3, pr := 7, aux := 0, aux2 := 0, mod := 0 }),
   (11, [0x04180004, 0x11FE4000], .openp { g := 127, ssp := 0, dsp := 2, src := 0, dst := 8, np := 3, pr := 0, aux := 0, aux2 := 2, mod := 0 }),
   (11, [0x00180580, 0x30FF0020], .rsend { g := 127, ssp := 2, dsp := 0, src := 8, dst := 0, np := 3, pr := 0, aux := 11, aux2 := 0, mod := 0 }),
   (11, [0x04180580, 0x31FE2000], .rrecv { g := 127, ssp := 0, dsp := 1, src := 0, dst := 8, np := 3, pr := 0, aux := 11, aux2 := 0, mod := 0 }),
   (11, [0x00C00000, 0x05FE4A20], .dtblld { g := 127, rd := 9, ra := 17, rb := 0, rc := 0, sub := 3, pt := 0 }),
   (11, [0x80000000, 0x06FE0230], .dpref { g := 127, rd := 0, ra := 17, rb := 33, rc := 0, sub := 0, pt := 0 }),
   (11, [0x80400000, 0x07FE0230], .dflush { g := 127, rd := 0, ra := 17, rb := 33, rc := 0, sub := 1, pt := 0 }),
   (11, [0x80000000, 0x20FE0230], .enq { g := 127, rd := 0, ra := 17, rb := 33, rc := 0, sub := 0, pt := 0 }),
   (11, [0x80000000, 0x21FE0230], .deq { g := 127, rd := 0, ra := 17, rb := 33, rc := 0, sub := 0, pt := 0 }),
   (11, [0x80720000, 0x21FE0230], .deqNb { g := 127, rd := 0, ra := 17, rb := 33, rc := 0, sub := 1, pt := 100 }),
   (11, [0x80000000, 0x22FE4A30], .qctlOpen { g := 127, rd := 9, ra := 17, rb := 33, rc := 0, sub := 0, pt := 0 }),
   (11, [0x00400000, 0x22FE4A20], .qctlClose { g := 127, rd := 9, ra := 17, rb := 0, rc := 0, sub := 1, pt := 0 }),
   (11, [0x80800000, 0x22FE4A30], .qctlBackoff { g := 127, rd := 9, ra := 17, rb := 33, rc := 0, sub := 2, pt := 0 }),
   (11, [0x00C00000, 0x22FE4A20], .qctlDepth { g := 127, rd := 9, ra := 17, rb := 0, rc := 0, sub := 3, pt := 0 }),
   (11, [0x00000000, 0x28FE4A20], .tsub { g := 127, rd := 9, ra := 17, rb := 0, rc := 0, sub := 0, pt := 0 }),
   (11, [0xE4000000, 0x29FE4A30], .launch { g := 127, rd := 9, ra := 17, rb := 33, rc := 50, sub := 0, pt := 0 }),
   (11, [0x80000000, 0x2AFE0230], .jraise { g := 127, rd := 0, ra := 17, rb := 33, rc := 0, sub := 0, pt := 0 }),
   (11, [0x00000000, 0x2BFE4A20], .jwait { g := 127, rd := 9, ra := 17, rb := 0, rc := 0, sub := 0, pt := 0 }),
   (11, [0x80000000, 0x2CFE0230], .jdone { g := 127, rd := 0, ra := 17, rb := 33, rc := 0, sub := 0, pt := 0 })]

def wordsEngineB : List (Nat × List Nat × Instr) :=
  [(11, [0x00000000, 0x2DFE4A20], .jflags { g := 127, rd := 9, ra := 17, rb := 0, rc := 0, sub := 0, pt := 0 }),
   (11, [0x80000000, 0x38FE4A30], .pfxlook { g := 127, rd := 9, ra := 17, rb := 33, rc := 0, sub := 0, pt := 0 }),
   (11, [0xE4000000, 0x39FE4A30], .pfxins { g := 127, rd := 9, ra := 17, rb := 33, rc := 50, sub := 0, pt := 0 }),
   (11, [0x80000000, 0x3AFE0230], .trim { g := 127, rd := 0, ra := 17, rb := 33, rc := 0, sub := 0, pt := 0 }),
   (11, [0x80400000, 0x3BFE0230], .pin { g := 127, rd := 0, ra := 17, rb := 33, rc := 0, sub := 1, pt := 0 }),
   (11, [0x00000000, 0x40FE4A20], .stopen { g := 127, rd := 9, ra := 17, rb := 0, rc := 0, sub := 0, pt := 0 }),
   (11, [0x00000000, 0x41FE4A20], .stclose { g := 127, rd := 9, ra := 17, rb := 0, rc := 0, sub := 0, pt := 0 }),
   (11, [0x00000000, 0x42FE4A20], .strung { g := 127, rd := 9, ra := 17, rb := 0, rc := 0, sub := 0, pt := 0 }),
   (11, [0x00000000, 0x43FE4A20], .frameRsv { g := 127, rd := 9, ra := 17, rb := 0, rc := 0, sub := 0, pt := 0 }),
   (11, [0x80400000, 0x43FE4A30], .framePub { g := 127, rd := 9, ra := 17, rb := 33, rc := 0, sub := 1, pt := 0 }),
   (11, [0x00800000, 0x43FE4A20], .frameChk { g := 127, rd := 9, ra := 17, rb := 0, rc := 0, sub := 2, pt := 0 }),
   (11, [0x80000000, 0xF0FE0230], .seedset { g := 127, rd := 0, ra := 17, rb := 33, rc := 0, sub := 0, pt := 0 }),
   (11, [0x80000000, 0xF1FE0230], .cbset { g := 127, rd := 0, ra := 17, rb := 33, rc := 0, sub := 0, pt := 0 }),
   (11, [0xE4000000, 0xF2FE0230], .xlinvRng { g := 127, rd := 0, ra := 17, rb := 33, rc := 50, sub := 0, pt := 0 }),
   (11, [0x00400000, 0xF2FE0220], .xlinvAsid { g := 127, rd := 0, ra := 17, rb := 0, rc := 0, sub := 1, pt := 0 }),
   (11, [0x00800000, 0xF2FE0000], .xlinvAll { g := 127, rd := 0, ra := 0, rb := 0, rc := 0, sub := 2, pt := 0 }),
   (11, [0x00000000, 0xF3FE4A20], .crset { g := 127, rd := 9, ra := 17, rb := 0, rc := 0, sub := 0, pt := 0 })]

theorem test_decode_enginea : wordsEngineA.all decodesAs = true := by decide +kernel
theorem test_encode_enginea : wordsEngineA.all encodesTo = true := by decide +kernel

theorem test_decode_engineb : wordsEngineB.all decodesAs = true := by decide +kernel
theorem test_encode_engineb : wordsEngineB.all encodesTo = true := by decide +kernel

/-! ### Witnesses: a state and operands that meet the hypotheses of each statement, clause by clause -/

/-- The placed strand, with a team that has tiles, panes and a handler, and some registers. -/
def W : State :=
  ((State.reset.withFetchWord 32 0).setTm (fun T => { T with tiles := 32, wp := 64, xp := 64, handler := 65536 })).setSt (fun st =>
    { st with a := [(1, 5), (2, 7), (3, 65536), (6, 64), (7, 0xFFFFFFFFFFFFFFFF)], b := [(1, 65540), (2, 65542)] })

def W.trap : State := W.setSt (fun st => { st with trapen := 127 })
def W.handler : State := W.setSt (fun st => { st with tmode := true, level := 1 })

def gOp : OpG := { g := 0, d := 4, a := 1, b := 2 }
def lOp : OpL := { g := 0, d := 4, a := 1, b := 2, imm := 3 }
def vOp : OpV := { bay := 1, g := 0, d := 4, a := 1, b := 2 }
def nOp : OpN := { g := 0, imm := 0 }

theorem witness_IntegerArithmetic :
    (0x00004105 / 2 ^ 25 % 128 = 0 ∧ 0xC2000000 / 2 ^ 25 % 128 = 0x61 ∧ 0x1A000041 / 2 ^ 25 % 128 = 0x0D ∧ 0x1A000041 % 64 ≠ 0 ∧ 0xC2000000 % 64 = 0) ∧
    W.pS gOp.g = true ∧ W.aR gOp.a = 5 ∧ W.aR gOp.b = 7 ∧ W.pS lOp.g = true := by decide +kernel

theorem witness_IntegerDivision :
    0x0A004105 / 2 ^ 25 % 128 = 0x05 ∧ (W.pS gOp.g = true ∧ W.aR gOp.a = 5 ∧ W.aR gOp.b = 7 ∧ (7 : Word) ≠ 0) ∧
    (W.pS 0 = true ∧ W.aR 9 = 0 ∧ fDZ &&& W.rs.trapen = 0) ∧ (W.trap.pS 0 = true ∧ W.trap.aR 9 = 0 ∧ fDZ &&& W.trap.rs.trapen ≠ 0) := by
  decide +kernel

theorem witness_LogicShiftsAndFields :
    (0x20000041 / 2 ^ 25 % 128 = 0x10 ∧ 0x50000041 / 2 ^ 25 % 128 = 0x28) ∧ (W.pS 0 = true ∧ W.aR 1 = 5 ∧ W.aR 7 = 0xFFFFFFFFFFFFFFFF ∧ 63 = (0xFFFFFFFFFFFFFFFF : Word).toNat % 64 ∧ 63 < 64) ∧
    (W.aR 4 = 0 ∧ W.aR 6 = 64 ∧ 0 = (64 : Word).toNat % 64 ∧ min ((64 : Word).toNat / 256 % 128) (64 - 0) = 0) := by decide +kernel

theorem witness_BitCounts : (0x23, Instr.brev) ∈ [(0x20, Instr.clz), (0x21, Instr.ctz), (0x22, Instr.popc), (0x23, Instr.brev)] ∧
    0x46000041 / 2 ^ 25 % 128 = 0x23 ∧ W.pS 0 = true ∧ W.aR 9 = 0 := by
  refine ⟨by simp, ?_⟩
  decide +kernel

theorem witness_Compares :
    (W.pS 0 = true ∧ WellFormed (.cmp { g := 0, d := 0, a := 1, b := 2, imm := 10 * 16384 + 2 * 128 + 3 }) ∧ W.aR 1 &&& W.aR 2 ≠ 0) ∧
    WellFormed (.cmpi { g := 0, d := 0, a := 7, b := 0, imm := 0xFFFC0000 + 0 * 16384 + 2 * 128 + 3 }) ∧
    W.aR 7 = (BitVec.ofNat 14 (0xFFFC0000 / 2 ^ 18)).signExtend 64 := by decide +kernel

theorem witness_SelectsAndImmediates : W.pS 0 = true ∧ ({ lOp with b := 0 } : OpL).b = 0 ∧ ({ lOp with b := 1 } : OpL).b = 1 := by
  decide +kernel

/-- A strand with a range of its own; a launch whose forced pool holds two portions; a team whose second strand has a range to split. -/
def W.ranged (lo hi : Word) : State := W.setSt (fun st => { st with wnext := lo, wend := hi })
def W.pooled : State := W.updLaunch 1 (fun L => { L with pool := [(4, 8), (9, 10)] })
def W.rich : State := (W.setTm (fun T => { T with nstr := 2 })).updStrand 1 (fun st => { st with wnext := 2, wend := 7 })

theorem witness_SystemRegisters :
    (W.pS 0 = true ∧ 0x14 < 0x15 ∧ ({ gOp with d := 0x0F } : OpG).d = 0x0F ∧ (0x0C ≤ 0x0F ∧ 0x0F ≤ 0x0F) ∧ W.coreOf (teamOf W.cur) < 192) ∧
    (0x70005000 / 2 ^ 25 % 128 = 0x38 ∧ 0x70005000 % 64 = 0 ∧ 0x72011040 / 2 ^ 25 % 128 = 0x39 ∧ 0x72011040 % 64 = 0 ∧
      0x72011040 / 2 ^ 12 % 64 = 0x11 ∧ ¬ (0x09 = 0x08 ∨ 0x0B ≤ 0x09 ∧ 0x09 ≤ 0x11)) ∧
    ((W.ranged 3 4).rs.wnext.toNat < (W.ranged 3 4).rs.wend.toNat) ∧
    ((W.pooled.rs.wend.toNat ≤ W.pooled.rs.wnext.toNat) ∧ (W.pooled.cluster (clusterOf (W.pooled.coreOf (teamOf W.pooled.cur)))).hot = false ∧
      (W.pooled.launch W.pooled.tm.launch).pool = (4, 8) :: [(9, 10)]) ∧
    ((W.rich.rs.wend.toNat ≤ W.rich.rs.wnext.toNat) ∧ (W.rich.launch W.rich.tm.launch).pool = [] ∧
      (W.rich.stealOrder W.rich.cur).find? (fun k => decide (2 ≤ (W.rich.strand k).wend.toNat - (W.rich.strand k).wnext.toNat)) = some 1 ∧
      1 ≠ W.rich.cur) ∧
    ((W.rs.wend.toNat ≤ W.rs.wnext.toNat) ∧ (W.launch W.tm.launch).pool = [] ∧
      (∀ k ∈ W.stealOrder W.cur, (W.strand k).wend.toNat ≤ (W.strand k).wnext.toNat + 1)) := by
  decide +kernel

/-- A strand whose a1 names strand 0 of core 0 of the placed launch, mailbox 15, and which waits for that mailbox. -/
def W.mail : State := W.setSt (fun st => { st with a := [(1, 0x10000000F), (2, 9)], run := .blocked (.mbx 0x8000) })

theorem witness_MailboxesAndTransom :
    ((W.mail.aR 1).toNat / 2 ^ 32 = 1 ∧ (W.mail.aR 1).toNat / 2 ^ 16 % 256 = 0 ∧ (W.mail.aR 1).toNat / 256 % 4 = 0 ∧ (W.mail.aR 1).toNat % 16 = 15 ∧
      W.mail.launchOf 1 = some 1 ∧ (W.mail.launch 1).hdr = some placeHdr ∧ 0 < placeHdr.cores ∧ 0 < placeHdr.strands ∧
      W.mail.slotOf 1 0 = some 0 ∧ (W.mail.strand 0).run ≠ .exited ∧ (W.mail.strand 0).run ≠ .terminated ∧
      (W.mail.strand 0).run = .blocked (.mbx 0x8000) ∧ bit 0x8000 15 = true) ∧
    W.launchOf ((W.aR 1).toNat / 2 ^ 32) = none ∧ W.anyActive 0 1 = true ∧ (7 < 8 ∧ 16 ≤ 31 ∧ 31 < 32 ∧ 32 ≤ 39 ∧ 39 < 40) := by decide +kernel

theorem witness_ScalarFloat :
    (W.pS 0 = true ∧ (fp32.result ((fp32.decode 5).add (fp32.decode 7))).2 &&& W.rs.trapen = 0 ∧ (fcvtCode 0 5).2 &&& W.rs.trapen = 0) ∧
    WellFormed (.fcmp { g := 0, d := 0, a := 1, b := 2, imm := 5 * 16384 + 2 * 128 + 3 }) ∧ (0 : Flags) &&& W.rs.trapen = 0 := by decide +kernel

theorem witness_PredicateLogic : 2 < 3 ∧ (∀ l, l < 128 → (W.pL 0).getLsbD l = true) := by decide +kernel

theorem witness_LaneArithmetic : vOp.inRange = true ∧ ({ vOp with b := 63, d := 63 } : OpV).inRange = true := by decide

theorem witness_LaneLogicAndFields : vOp.inRange = true ∧ WellFormed (.vmovi { bay := 7, g := 0, d := 63, imm := 4095 }) ∧
    (W.vR 1 2 0).toNat % 32 = 0 ∧ min ((W.vR 1 2 0).toNat / 256 % 64) (32 - 0) = 0 := by decide +kernel

theorem witness_LaneComparesAndSelect :
    ({ bay := 1, cc := 5, pt := 3, pf := 4, a := 1, b := 2 } : OpP).inRange = true ∧ (0 : Flags) &&& W.rs.trapen = 0 ∧ vOp.inRange = true := by
  decide +kernel

theorem witness_PackedAndDotProducts :
    (vOp.inRange = true ∧ (0 : Flags) &&& W.rs.trapen = 0) ∧
    (W.anyActive 0 1 = true ∧ tagCause (512 / 8) (W.vTagR 1 1) (W.vTagR 1 2) = none ∧ tagCause (512 / 16) (W.vTagR 1 1) (W.vTagR 1 2) = none) ∧
    (W.setSt (fun st => { st with vtag := [(65, 1)] })).anyActive 0 1 = true ∧
    tagCause 64 ((W.setSt (fun st => { st with vtag := [(65, 1)] })).vTagR 1 1) ((W.setSt (fun st => { st with vtag := [(65, 1)] })).vTagR 1 2) = some 0 := by
  decide +kernel

theorem witness_LaneFloat : (vOp.inRange = true ∧
      ((List.range 16).filter (W.active 0 1)).foldl (fun g l => g ||| (rcpC (W.vR 1 1 l).toNat).2) 0 &&& W.rs.trapen = 0 ∧
      ((List.range 16).filter (W.trap.active 0 1)).foldl (fun g l => g ||| (rcpC (W.trap.vR 1 1 l).toNat).2) 0 &&& W.trap.rs.trapen ≠ 0) ∧
    ((fp32.decode 0x3F800000).isNan = false ∧ (fp32.decode 0x80000000).isZero = true ∧ (fp32.decode 0x80000000).isNeg = true ∧
      (fp32.decode 0).isNeg = false ∧ (fp32.decode 0x3F800000).lt (fp32.decode 0x40000000) = true) ∧
    (0xFFFFFFFF < 2 ^ 32 ∧ (fp32.decode 0x40490FDB).toInt (-2 ^ 31) (2 ^ 31 - 1) = (3, fNX) ∧
      bf16.round (fp32.decode 0x40490FDB) = (0x4049, fNX) ∧ fp16.round (fp32.decode 0x3F800000) = (0x3C00, 0)) ∧
    (fp32.decode 0x7F800001 = .nan true ∧ fp32.decode 0x7F800000 = .inf false ∧ fp32.decode 0xFF800000 = .inf true ∧
      fp32.decode 0x40000000 = .num false 8388608 4194304 ∧ 8388608 = 2 ^ 1 * 4194304 ∧
      8388608 % 4194304 = 0 ∧ 8388608 / 4194304 ≤ 400 ∧ fp32.decode 0x80000000 = .num true 0 (2 ^ 149)) := by decide +kernel

theorem witness_LaneNumbers : 7 < 8 ∧ 0xC8000001 / 64 % 64 = 0 ∧ 0xC8000001 / 2 ^ 25 % 128 = 0x64 ∧ ({ vOp with b := 1 } : OpV).inRange = true := by decide

theorem witness_LanesAcross : ({ vOp with b := 31 } : OpV).inRange = true ∧ W.anyActive 0 1 = true ∧ 2 < 3 ∧ 31 % 16 = 15 ∧ 23 % 16 < 8 ∧ 23 < 32 ∧
    W.rs.trapen = 0 ∧ (31 % 16 = 15 ∧ 8 % 16 = 8 ∧ 10 % 16 = 10 ∧ 26 < 32) ∧
    (∀ l, l < 16 → W.active 0 1 l = true) ∧ ({ vOp with b := 26 } : OpV).inRange = true := by decide +kernel

theorem witness_ScratchpadAccesses :
    (W.pS 0 = true ∧ 6 < 7 ∧ 8 = 2 ^ (6 / 2) ∧
      262136 = (BitVec.ofInt 64 ((W.aR 6).toInt + (BitVec.ofNat 32 262072).toInt)).toNat ∧ 262136 % 8 = 0 ∧ 262136 < 4194304) ∧
    PaneFree W (262136 / 4096) false ∧ PaneFree W (262136 / 4096) true ∧
    (W.iss.addrs = none ∧ W.anyActive 0 1 = true ∧ 128 = ((W.aR 6).toNat + 64 * 1) % 2 ^ 64 ∧ 128 % 64 = 0) ∧
    (∀ l, l < 16 → W.active 0 1 l = true → ((W.aR 6).toNat + (W.vR 1 1 l).toNat) % 2 ^ 64 % 4 = 0 ∧
      ((W.aR 6).toNat + (W.vR 1 1 l).toNat) % 2 ^ 64 < 4194304 ∧ PaneFree W (((W.aR 6).toNat + (W.vR 1 1 l).toNat) % 2 ^ 64 / 4096) true) := by
  unfold PaneFree
  decide +kernel

/-- Descriptors of VNRW and VWDN in a2: BF16 to C4 with a computed scale, and FP8 with none. -/
def W.conv (c : Nat) : State := W.setSt (fun st => { st with a := [(2, BitVec.ofNat 64 c)] })

def W.cmd (p : Nat) : Cmd := { id := 1, strand := 0, op := .dfill { g := 0, ssp := 0, dsp := 2, src := 0, dst := 0, np := 0, pr := 0, aux := 0, aux2 := 0, mod := 0 },
                               items := [1056], promise := some p }
/-- Descriptors with a supplied scale in X pane 1, which is open, or which an engine command holds. -/
def W.scaled (l : List (Nat × Shutter)) : State :=
  (W.conv (0x40000004 + 2 * 2 ^ 32 + 2 ^ 34)).setTm (fun T => { T with
    desc := [(1057, mkDesc 4 2 0 0)], shut := l, cmds := [{ W.cmd 9 with items := [1057] }] })

theorem witness_NarrowAndWiden :
    (firstTrap ((W.conv 0).convCheck 0 (badFields 0 1 4 [cdTag 0])) = some (illegalEncoding W.iss.word) ∧
      firstTrap ((W.scaled [(1057, .cmd)]).convCheck (0x40000004 + 2 * 2 ^ 32 + 2 ^ 34)
        (badFields (0x40000004 + 2 * 2 ^ 32 + 2 ^ 34) 1 4 [0])) = none ∧
      firstWait ((W.scaled [(1057, .cmd)]).convCheck (0x40000004 + 2 * 2 ^ 32 + 2 ^ 34)
        (badFields (0x40000004 + 2 * 2 ^ 32 + 2 ^ 34) 1 4 [0])) = some (.pane 1057) ∧
      firstTrap ((W.scaled []).convCheck (0x40000004 + 2 * 2 ^ 32 + 2 ^ 34)
        (badFields (0x40000004 + 2 * 2 ^ 32 + 2 ^ 34) 1 4 [0])) = none ∧
      firstWait ((W.scaled []).convCheck (0x40000004 + 2 * 2 ^ 32 + 2 ^ 34)
        (badFields (0x40000004 + 2 * 2 ^ 32 + 2 ^ 34) 1 4 [0])) = none) ∧
    (W.active 0 1 0 = true ∧ 16 * 4 + cdDoff 0x40000004 ≤ 16 * 4 + 0 ∧
      16 * 4 + 0 < 16 * 4 + cdDoff 0x40000004 + (bytesOf (cdFmt 0x40000004) ((W.conv 0x40000004).narrowBlock 0x40000004
        (((W.conv 0x40000004).rowsFrom 1 1 (wideRegs 0x40000004)).map fp32.decode)).1).length / 4) ∧
    (vOp.inRange = true ∧ (W.conv 0x40000004).anyActive 0 1 = true ∧ ((W.conv 0x40000004).aR 2).toNat = 0x40000004 ∧
      firstTrap ((W.conv 0x40000004).convCheck 0x40000004 (badFields 0x40000004 1 4 [cdTag 0x40000004])) = none ∧
      firstWait ((W.conv 0x40000004).convCheck 0x40000004 (badFields 0x40000004 1 4 [cdTag 0x40000004])) = none ∧
      ((W.conv 0x40000004).narrowBlock 0x40000004 (((W.conv 0x40000004).rowsFrom 1 1 (wideRegs 0x40000004)).map fp32.decode)).2.2 &&&
        (W.conv 0x40000004).rs.trapen = 0 ∧ cdSmode 0x40000004 ≠ 1) ∧
    firstTrap ((W.conv 0x40000004).convCheck 0x40000004
      (badFields 0x40000004 4 1 [(W.conv 0x40000004).vTagR 1 1, cdWtag 0x40000004] || cdSmode 0x40000004 = 1)) = none ∧
    firstWait ((W.conv 0x40000004).convCheck 0x40000004
      (badFields 0x40000004 4 1 [(W.conv 0x40000004).vTagR 1 1, cdWtag 0x40000004] || cdSmode 0x40000004 = 1)) = none ∧
    ((W.conv 0x40000004).widenBlock 0x40000004 ((W.conv 0x40000004).vTagR 1 1)
      (elemsOf 4 ((((((W.conv 0x40000004).rowsFrom 1 1 1).map (leBytes 4)).flatten).drop 0).take 16))).2 &&&
        (W.conv 0x40000004).rs.trapen = 0 := by decide +kernel

theorem witness_Branches : W.pS 0 = true ∧ (W.bR 1).toNat % 4 = 0 ∧ (W.bR 2).toNat % 4 ≠ 0 := by decide +kernel

/-- The second part of a result is a value. -/
def isOk {σ ε α : Type} (x : σ × Except ε α) : Bool := match x.2 with | .ok _ => true | .error _ => false

theorem isOk_iff {σ ε α : Type} {x : σ × Except ε α} (h : isOk x = true) : ∃ s a, x = (s, .ok a) := by
  obtain ⟨s, e⟩ := x
  cases e with
  | ok a => exact ⟨s, a, rfl⟩
  | error e => exact absurd h (by simp [isOk])

def lvl (n : Nat) : LoopLevel := { start := 65536, last := 65536, remaining := n }
/-- Strands with four loop levels, with one, and at the last bundle of a body. -/
def W.full : State := W.setSt (fun st => { st with loops := [lvl 1, lvl 2, lvl 3, lvl 4] })
def W.one : State := W.setSt (fun st => { st with loops := [{ lvl 2 with last := 65540 }] })
def W.last : State := W.setSt (fun st => { st with loops := [lvl 2] })

theorem witness_HardwareLoops :
    (W.pS 0 = true ∧ W.rs.atLast = false ∧ (W.rs.pc + BitVec.ofNat 56 W.iss.bytes).toNat ≤ (W.rs.pc + BitVec.ofNat 56 (4 * 4095)).toNat ∧
      W.rs.loops.length < 4 ∧ W.full.rs.loops.length = 4 ∧ (W.full.setSt (fun st => { st with pc := 65540 })).rs.atLast = false) ∧
    (W.last.rs.atLast = true ∧ (W.rs.pc + BitVec.ofNat 56 (4 * 0)).toNat < (W.rs.pc + BitVec.ofNat 56 W.iss.bytes).toNat) ∧
    (∃ s' a, W.afterBundle W.cur (W.rs.pc + BitVec.ofNat 56 (4 * 1)).toNat = (s', .ok a)) ∧
    (W.one.rs.atLast = false ∧ 1 = min (3 + 1) (W.one.rs.loops.filter (fun x => !x.frozen)).length ∧
      (W.one.rs.loops.filter (fun x => !x.frozen))[1 - 1]? = some { lvl 2 with last := 65540 }) ∧
    (∃ s' a, W.one.afterBundle W.one.cur 65540 = (s', .ok a)) ∧
    ((lvl 2).frozen = false ∧ (lvl 2).last = 65536 ∧ 1 < (lvl 2).remaining ∧ (lvl 1).remaining = 1 ∧ (lvl 1).last ≠ 65540) ∧
    ((W.setSt (fun st => { st with loops := [{ lvl 2 with frozen := true }] })).rs.atLast = false ∧ ({ lvl 2 with frozen := true } : LoopLevel).frozen = true ∧
      65536 = 65536 ∧ popRange 65544 [lvl 2, { lvl 1 with last := 65550 }] = [{ lvl 1 with last := 65550 }]) ∧
    ((0 : Nat) < { W.iss with rept := 1 }.rept ∧ (endTest W.st.pc W.st.loops).2 = none ∧ (endTest W.last.st.pc W.last.st.loops).2 = some 65536) := by
  refine ⟨by decide +kernel, by decide +kernel, isOk_iff (by decide +kernel), by decide +kernel, isOk_iff (by decide +kernel), by decide +kernel,
    by decide +kernel, by decide +kernel⟩

def W.asleep : State := W.setSt (fun st => { st with run := .blocked (.sleep 9) })
def W.promised : State := W.asleep.setTm (fun T => { T with cmds := [W.cmd 9, W.cmd 12] })
def W.due : State := W.setTm (fun T => { T with cmds := [W.cmd 0] })
/-- A second strand of the team, ready or not. -/
def W.pair (r : Run) : State := (W.setTm (fun T => { T with nstr := 2 })).updStrand 1 (fun st => { st with pc := 65536, run := r })

theorem witness_WaitsAndPromises :
    (W.pS 0 = true ∧ W.cycle < W.cycle + 1 ∧ (W.aR 9).toNat ≤ W.cycle ∧ (∀ c ∈ W.tm.cmds, c.strand = W.cur → ∀ p ∈ c.promise, (0 : Nat) < p)) ∧
    ((W.asleep.strand 0).run = .blocked (.sleep 9) ∧ (W.asleep.team (teamOf 0)).status = .bound ∧ (W.asleep.team (teamOf 0)).cmds = []) ∧
    ((∃ m, m < 16 ∧ (W.setSt (fun st => { st with arrive := 0x8000 })).st.arrive.getLsbD m = true ∧ (0x8000).testBit m = true) ∧
      (∀ m, m < 16 → (0x7FFF).testBit m = true → (W.setSt (fun st => { st with arrive := 0x8000 })).st.arrive.getLsbD m = false)) ∧
    (((W.pair .ready).slotOrder ((W.pair .ready).coreOf 0) (W.pair .ready).st.slot).find? (fun k => k != 0 && (W.pair .ready).canIssue k) = some 1 ∧
      (∀ k ∈ (W.pair .exited).slotOrder ((W.pair .exited).coreOf 0) (W.pair .exited).st.slot, k = 0 ∨ (W.pair .exited).canIssue k = false)) ∧
    (W.due.cur = 0 ∧ (W.due.aR 9).toNat ≤ W.due.cycle ∧ (∃ c ∈ (W.due.team 0).cmds, c.strand = 0 ∧ c.promise = some 0) ∧
      (∀ c ∈ (W.due.team 0).cmds, c.strand = 0 → ∀ q, c.promise = some q → 0 ≤ q)) ∧
    ((W.promised.strand 0).run = .blocked (.sleep 9) ∧ (W.promised.team 0).status = .bound ∧
      (∃ c ∈ (W.promised.team 0).cmds, c.strand = 0 ∧ c.promise = some 9) ∧ 9 ≤ 9 ∧
      (∀ c ∈ (W.promised.team 0).cmds, c.strand = 0 → ∀ q ∈ c.promise, 9 ≤ q)) := by
  simp only [Nat.zero_le, implies_true, and_true]
  decide +kernel

/-- A strand that has a store to publish, to a mapped page and to none. -/
def W.store (va : Nat) : State :=
  W.setSt (fun st => { st with stores := [(va, some { val := 1, start := va, scope := none, fresh := true })] })
/-- Every store of a boundary could be published. -/
def pubsOk (x : State × List (Nat × Nat × Byte) × List (Nat × Nat × Nat)) : Bool := x.2.2.isEmpty
def W.pending (p : Pending) : State := W.setSt (fun st => { st with pend := [p] })

/-- A gang of two teams, bound in the slots given; its other strand has arrived. -/
def W.ganged (slots : List Nat) : State :=
  (W.updLaunch 1 (fun L => { L with gang := true, hdr := some { placeHdr with cores := 2, gang := true }, slots := slots, bound := slots.length })).updTeam 1
    (fun T => { T with status := .bound, nstr := 1, launch := 1 })
def W.arrived (slots : List Nat) : State := (W.ganged slots).updLaunch 1 (fun L => { L with barArr := [4] })

theorem witness_BarriersAndPhases :
    (W.pS 0 = true ∧ (W.launch W.tm.launch).gang = false ∧ W.cur ∈ W.members (teamOf W.cur) ∧
      (∀ k ∈ W.members (teamOf W.cur), k = W.cur ∨ k ∈ W.tm.barArr ∨ (W.strand k).run.over = true)) ∧
    (∃ k ∈ (W.pair .ready).members 0, k ≠ (W.pair .ready).cur ∧ k ∉ (W.pair .ready).tm.barArr ∧ ((W.pair .ready).strand k).run.over = false) ∧
    ((W.ganged [0, 1]).tm.launch = 1 ∧ ((W.ganged [0, 1]).launch 1).gang = true ∧
      (((W.ganged [0, 1]).launch 1).slots.map (W.ganged [0, 1]).members).flatten = [0, 4] ∧ (W.ganged [0, 1]).cur ∈ [0, 4] ∧
      (4 : Nat) ≠ (W.ganged [0, 1]).cur ∧ 4 ∉ ((W.ganged [0, 1]).launch 1).barArr ∧ ((W.ganged [0, 1]).strand 4).run.over = false) ∧
    ((∀ k ∈ [0, 4], k = (W.arrived [0, 1]).cur ∨ k ∈ ((W.arrived [0, 1]).launch 1).barArr ∨ ((W.arrived [0, 1]).strand k).run.over = true) ∧
      (((W.arrived [0, 1]).launch 1).hdr.map (·.cores)).getD 0 = ((W.arrived [0, 1]).launch 1).bound ∧
      (((W.arrived [0]).launch 1).hdr.map (·.cores)).getD 0 ≠ ((W.arrived [0]).launch 1).bound) ∧
    (W.st.pcieOpen = false ∧ W.homesMove = false ∧ (W.pending { global := true, pcie := true, dest := .none, value := 0, done := false }).st.pcieOpen = true ∧
      pubsOk ((W.store 65600).pubCells 0 ((W.store 65600).st.toPublish 3)) = true ∧
      ((W.store 65600).pubCells 0 ((W.store 65600).st.toPublish 3)).2.1 = [(131136, 0, 1)] ∧
      pubsOk ((W.store 0x900000).pubCells 0 ((W.store 0x900000).st.toPublish 0)) = false) := by decide +kernel

theorem witness_TrapEntry :
    (0x3F < 0x40 ∧ (W.strand 0).tmode = false ∧ (W.team (teamOf 0)).handler ≠ 0) ∧
    (isSupervisor 65536 = true ∧ (W.strand 262144).tmode = false ∧ teamOf 262144 = 65536) ∧
    (0x40 ≤ 0x40 ∧ (W.handler.strand 0).tmode = true ∧ ((W.setTm (fun T => { T with handler := 0 })).team 0).handler = 0 ∧ 0 ≠ 4 * runtimeTeam) := by
  decide +kernel

theorem witness_TrapReturnAndExit : W.pS 0 = true ∧ W.handler.rs.tmode = true ∧ W.handler.rs.level ≠ 0 ∧ W.rs.tmode = false ∧ W.rs.level = 0 := by
  decide +kernel

/-- The page of the placed code, with another type. -/
def W.typed (leaf : Nat) : State := { W with mem := Memory.writeList W.mem (placeTables + 49152 + 8) (leBytes 8 leaf) }
def okAt (x : State × Except TrapRec (Nat × Nat × Nat)) (f : Nat × Nat × Nat → Bool) : Bool := match x.2 with | .ok v => f v | .error _ => false

theorem okAt_iff {x : State × Except TrapRec (Nat × Nat × Nat)} {f : Nat × Nat × Nat → Bool} (h : okAt x f = true) :
    ∃ s' pa ty leaf, x = (s', .ok (pa, ty, leaf)) ∧ f (pa, ty, leaf) = true := by
  obtain ⟨s, e⟩ := x
  cases e with
  | ok a => exact ⟨s, a.1, a.2.1, a.2.2, rfl, h⟩
  | error e => exact absurd h (by simp [okAt])

/-- A PCIe access that is not performed, an acquiring atomic among them; a strand that has made it. -/
def openP : Pending := { global := true, pcie := true, dest := .a 5, value := 0, done := false }
def acqP : Pending := { openP with acq := some 3 }
def waits (s : State) (p : Pending) : State := s.setSt (fun st => { st with pend := [p] })

theorem witness_GlobalStores :
    (W.pS 0 = true ∧ (65536 : Word) = BitVec.ofInt 64 ((W.aR 3).toInt + (BitVec.ofNat 32 0).toInt)) ∧
    (okAt (W.globalCheck 65536 8 .write) (fun (pa, ty, _) => decide (targetOf pa = .dram ∧ ty < 2)) = true) ∧
    (okAt ((W.typed (placeCode + 95)).globalCheck 65536 8 .write) (fun (pa, ty, _) => decide (targetOf pa = .dram ∧ 2 ≤ ty)) = true) ∧
    ((W.typed (placeCode + 95)).globalCheck 65536 8 .write).1.st.pcieOpen = false ∧
    (okAt ((waits (W.typed (placeCode + 95)) openP).globalCheck 65536 8 .write) (fun (_, ty, _) => decide (2 ≤ ty)) = true) ∧
    ((waits (W.typed (placeCode + 95)) openP).globalCheck 65536 8 .write).1.st.pcieOpen = true := by decide +kernel

def W.sup (leaf : Nat) : State := (W.typed leaf).setSt (fun st => { st with level := 1 })
def isPcie (t : Target) : Bool := match t with | .pcie _ _ => true | _ => false
def isPage (x : State × Access) : Bool := match x.2 with | .page => true | _ => false
def isProt (x : State × Access) : Bool := match x.2 with | .prot => true | _ => false
def isOkA (x : State × Access) : Bool := match x.2 with | .ok _ _ _ _ => true | _ => false
/-- A strand whose core view holds the line of its page, after a publication of another agent, on a supervisor core while the slices move. -/
def W.lined : State := W.updCore 0 (fun K => { K with view := [{ strand := 0, asid := 1, vline := 1024, pline := 2048, data := List.replicate 64 (0, 7) }] })
def W.moving : State :=
  (({ W with cur := 262148, rcState := 3 }).updTeam 65537 (fun T => { T with asid := 1, launch := 1 })).updStrand 262148 (fun st =>
    { st with level := 1, a := [(1, 65600), (3, 65536)] })

def isCtrl (t : Target) : Bool := match t with | .ctrl _ => true | _ => false

theorem witness_GlobalLoads :
    (W.pS 0 = true ∧ (65537 : Word).toNat % 2 ≠ 0 ∧ (2 ^ 56 : Word).toNat % 8 = 0 ∧ 2 ^ 56 ≤ (2 ^ 56 : Word).toNat ∧ 6 < 7) ∧
    (okAt ((W.typed (2 ^ 51 + 95)).globalCheck 65536 8 .read) (fun (pa, _, _) => isPcie (targetOf pa)) = true) ∧
    (okAt ((W.typed (2 ^ 51 + 95)).globalCheck 65536 8 .write) (fun (pa, _, _) => isPcie (targetOf pa)) = true) ∧
    (okAt ((W.sup (0xFFFFFC0000000 + 95)).globalCheck 65536 8 .read) (fun (pa, _, _) => isCtrl (targetOf pa)) = true) ∧
    (okAt ((W.sup (0xFFFFFC0000000 + 95)).globalCheck 65536 8 .write) (fun (pa, _, _) => isCtrl (targetOf pa)) = true) ∧
    (okAt ((W.store 65536).globalCheck 65536 1 .read) (fun (pa, ty, _) => decide (targetOf pa = .dram ∧ ty < 2)) = true) ∧
    (W.store 65536).st.ownByte 65536 = some 1 ∧
    ((waits W acqP).st.acqOpen = true ∧ W.st.acqOpen = false ∧ W.findLine W.cur 65536 = none ∧ W.st.ownByte 65536 = none) ∧
    (isPage (W.strandAccess 0 0x900000 .read) = true ∧ isProt ((W.typed (placeCode + 95 - 8)).strandAccess 0 65536 .write) = true ∧
      isOkA (W.strandAccess 0 65536 .read) = true) ∧
    (∃ l, W.lined.findLine W.lined.cur (65536 : Word).toNat = some l ∧ l.data.length = 64 ∧ l.data.getD 0 (0, 0) = (0, 7)) ∧
    (W.globalCheck 65536 8 .read).1.homesMove = false ∧ (W.globalCheck 65536 8 .read).1.log = [] ∧
    (okAt (W.moving.globalCheck 65536 8 .read) (fun (pa, ty, _) => decide (targetOf pa = .dram ∧ ty < 2)) = true ∧
      (W.moving.globalCheck 65536 8 .read).1.homesMove = true) ∧
    okAt ((W.typed (placeCode + 95)).globalCheck 65536 8 .read) (fun (pa, ty, _) => decide (targetOf pa = .dram ∧ 2 ≤ ty)) = true := by
  refine ⟨by decide +kernel, by decide +kernel, by decide +kernel, by decide +kernel, by decide +kernel, by decide +kernel, by decide +kernel,
    by decide +kernel, by decide +kernel, ⟨_, rfl, by decide +kernel, by decide +kernel⟩, by decide +kernel, by decide +kernel, by decide +kernel,
    by decide +kernel⟩

/-- A check that traps. -/
def isErr (x : State × Except TrapRec (Nat × Nat × Nat)) : Bool := match x.2 with | .ok _ => false | .error _ => true

theorem witness_Atomics :
    (W.pS 0 = true ∧ WellFormed (.atom { lOp with imm := 8 * 256 + 8 }) ∧ WellFormed (.cas { lOp with imm := 8 }) ∧
      (65536 : Word) = BitVec.ofInt 64 ((W.aR 3).toInt + (BitVec.ofNat 20 (8 / 4096)).toInt)) ∧
    (okAt (W.globalCheck 65536 8 .write) (fun (pa, _, leaf) => decide (targetOf pa = .dram ∧ (ptePerm leaf).testBit 0 = true)) = true ∧
      (W.globalCheck 65536 8 .write).1.st.stores = []) ∧
    okAt ((W.sup (0xFFFFFC0000000 + 95)).globalCheck 65536 8 .write) (fun (pa, _, _) => isCtrl (targetOf pa)) = true ∧
    (okAt ((W.typed (2 ^ 51 + 95)).globalCheck 65536 8 .write) (fun (pa, _, leaf) => isPcie (targetOf pa) && (ptePerm leaf).testBit 0) = true ∧
      ((W.typed (2 ^ 51 + 95)).globalCheck 65536 8 .write).1.st.pcieOpen = false ∧ ((W.typed (2 ^ 51 + 95)).globalCheck 65536 8 .write).1.st.stores = []) ∧
    (isErr (W.globalCheck 0x900000 8 .write) = true ∧ W.st.level = 0 ∧
      okAt ((W.typed (placeCode + 95 - 4)).globalCheck 65536 8 .write) (fun (_, _, leaf) => !(ptePerm leaf).testBit 0) = true) ∧
    ((waits W acqP).globalCheck 65536 8 .write).1.st.acqOpen = true ∧ (W.moving.globalCheck 65536 8 .write).1.homesMove = true ∧
    ((4 = 4 ∨ 4 = 8) ∧ 0xFFFFFFFF < 2 ^ (8 * 4)) := by decide +kernel

def loadP : Pending := { global := true, dest := .a 63, value := 9, due := 20 }

/-- A parked strand whose load is outstanding. -/
def W.parkedLoad : State := W.setSt (fun st => { st with pend := [loadP], run := .parked, parked := some { code := 0x41 } })

theorem witness_ResultsArrive :
    (((W.pending loadP).strand 0).nextPend (fun p => p.global && !p.failed) = some loadP ∧ ((W.pending loadP).strand 0).transom = [] ∧ loadP.ok = true ∧ loadP.acq = none ∧ loadP.dest = .a 63 ∧
      ((W.pending loadP).strand 0).run = .ready ∧ 0 ≠ 4 * runtimeTeam) ∧
    ((W.pending { loadP with pcie := true, size := 8 }).strand 0).nextPend (fun p => p.global && p.pcie && !p.failed) = some { loadP with pcie := true, size := 8 } ∧
    ((W.pending { loadP with global := false }).strand 0).nextPend (fun p => !p.global && p.done) = some { loadP with global := false } ∧
    ((W.parkedLoad.strand 0).run = .parked ∧ (W.parkedLoad.strand 0).parked.isSome = true ∧
      (W.parkedLoad.strand 0).nextPend (fun p => p.global && !p.failed) = some loadP) := by
  decide +kernel

def mtOp : OpMT := { g := 0, td := 31, ta := 30, tb := 0, col := 0, mode := 0, int := 0, cnt := 0 }
def maOp : OpMA := { g := 0, td := 3, wp := 32, xp := 4, kp := 0, int := 0 }
def mxOp : OpMX := { g := 0, t := 3, xp := 4, fmt := 2, sgeo := 0, tag := 0, cb := 0, chalf := 0, int := 0 }
def mopOf (i : Instr) : MOp := { strand := 0, op := i, tile := 3, w := 32, x := 4 }
/-- A core whose M queue holds `n` operations. -/
def W.queued (n : Nat) : State := W.updCore 0 (fun K => { K with mq := List.replicate n { strand := 0, op := .mtrn mtOp, tile := 31 } })

/-- BF16 operands in the panes that the products use. -/
def W.bf : State := W.setTm (fun T => { T with desc := [(64, 2), (1060, 2), (1056, 2)] })

/-- A product whose panes BF16 is not agreed on, or whose W pane a command holds. -/
def W.held (i : Nat) : State := W.bf.setTm (fun T => { T with shut := [(i, .cmd)], cmds := [{ W.cmd 9 with items := [i] }] })
/-- An MLD of the run of two panes at pane 4, which are open and agree. -/
def W.run2 : State := W.setTm (fun T => { T with desc := [(1060, 2), (1061, 2)] })

theorem witness_MatrixInstructionsIssue :
    ((∀ t ∈ [mtOp.td, mtOp.ta], t < W.rt.tiles) ∧ W.iss.addrs = none ∧ (W.core (W.coreOf 0)).mq.length < 8 ∧
      8 ≤ ((W.queued 8).core ((W.queued 8).coreOf 0)).mq.length ∧ [mtOp.td, 32] = [mtOp.td] ++ 32 :: [] ∧ W.rt.tiles ≤ 32) ∧
    (W.bf.paneArg 1 32 / 4096 = 32 ∧ W.bf.paneArg 2 4 / 4096 = 4 ∧ W.bf.paneArg 1 32 % 4096 = 0 ∧ W.bf.paneArg 2 4 % 4096 = 0 ∧
      3 < W.bf.rt.tiles ∧ 32 + 0 < W.bf.rt.wp ∧ 4 + 0 < W.bf.rt.xp ∧
      (∀ p, p ≤ 0 → W.bf.mShutter 1 (32 + p) = []) ∧ (∀ p, p ≤ 0 → W.bf.mShutter 2 (4 + p) = []) ∧
      W.bf.rt.mmaCause (mopOf (.mma maOp)) 1 (maOp.int == 1) (fun j => W.bf.rt.shutter j == .t) = none) ∧
    ((∀ r, r < 64 → latchPane W.bf.rs.latch r + 0 < W.bf.rt.xp ∧ latchPane W.bf.rs.latch r < 1024 ∧
        W.bf.mShutter 2 (latchPane W.bf.rs.latch r + 0) = []) ∧
      W.bf.rt.mmaCause { mopOf (.mmag maOp) with latch := W.bf.rs.latch } 1 (maOp.int == 1) (fun j => W.bf.rt.shutter j == .t) = none) ∧
    ((W.held 64).rt.shutter 64 ≠ .t ∧ (W.held 64).mShutter 1 32 = [] ∧ W.bf.paneArg 1 1025 % 4096 ≠ 0) ∧
    (W.run2.paneArg 1 4 / 4096 = 4 ∧ W.run2.paneArg 1 4 % 4096 = 0 ∧ runLen (dFmt (W.run2.rt.descOf 1060)) = 2 ∧
      W.run2.rt.mldCause 4 (fun y => W.run2.rt.shutter (1056 + y) == .t) = none ∧ 4 + 2 ≤ W.run2.rt.xp ∧ W.run2.rt.shutter 1060 = .t ∧
      (∀ p, p < 2 → W.run2.mShutter 2 (4 + p) = []) ∧ runLen mxOp.fmt = 2) ∧
    ((W.held 1060).rt.shutter 1060 ≠ .t ∧ (W.held 1060).mShutter 2 4 = [] ∧
      (W.run2.setTm (fun T => { T with shut := [(1061, .shut)] })).mShutter 2 4 = [] ∧
      (W.run2.setTm (fun T => { T with shut := [(1061, .shut)] })).mShutter 2 5 = [.trap { prio := 70, code := 6, tinfo := 5 }] ∧
      ((W.held 1060).setTm (fun T => { T with cmds := [{ W.cmd 9 with items := [1060], ring := some (1, 8) }] })).mShutter 2 4 =
        [.trap { prio := 70, code := 6, tinfo := 4 }]) ∧
    ((∀ p ∈ W.mOps 0, p.strand = 0 → False) ∧ (∃ p ∈ (W.queued 1).mOps 0, p.strand = 0 ∧ 31 ∈ p.writes) ∧ 31 < W.rt.tiles ∧
      (∀ p ∈ (W.queued 1).mOps 0, p.strand = 0 → 30 ∉ p.writes)) := by decide +kernel

/-- The operation of the queue fails the check made at its head: a deferred MLD of panes that do not agree. -/
def W.failing : State := W.updCore 0 (fun K => { K with mq := [{ strand := 0, op := .mld mxOp, tile := 3, x := 4, deferred := true }] })

theorem witness_MatrixOperationsRun :
    (((W.queued 1).core 0).mrun = none ∧ ((W.queued 1).core 0).mq = [{ strand := 0, op := .mtrn mtOp, tile := 31 }] ∧
      (W.queued 1).mReady { strand := 0, op := .mtrn mtOp, tile := 31 } = true ∧
      (((W.queued 1).team 0).seenBy { strand := 0, op := .mtrn mtOp, tile := 31 }).headCheck { strand := 0, op := .mtrn mtOp, tile := 31 } = none) ∧
    ((W.failing.core 0).mq = [{ strand := 0, op := .mld mxOp, tile := 3, x := 4, deferred := true }] ∧
      W.failing.mReady { strand := 0, op := .mld mxOp, tile := 3, x := 4, deferred := true } = true ∧
      (((W.failing.team 0).seenBy { strand := 0, op := .mld mxOp, tile := 3, x := 4, deferred := true }).headCheck
        { strand := 0, op := .mld mxOp, tile := 3, x := 4, deferred := true }).isSome = true) ∧
    ((W.held 1060).mReady { strand := 0, op := .mld mxOp, tile := 3, x := 4, before := 2 } = false) ∧
    ((W.updCore 0 (fun K => { K with mrun := some { op := mopOf (.mma maOp), done := 5 } })).core 0).mrun = some { op := mopOf (.mma maOp), done := 5 } := by
  decide +kernel

theorem witness_TileValues : (List.replicate 4096 0).length = 4096 ∧ 63 < 64 ∧ NMap.get false W.tm.tvalid 31 = false ∧
    (List.replicate 4096 (0 : Lane)).length = 4096 ∧ (0xFFFFFFFF < 2 ^ 32) ∧ [0xFFFFFFFF][0]? = some 0xFFFFFFFF := by decide +kernel

def deOp : OpDE := { g := 0, ssp := 0, dsp := 2, src := 1024 + 3, dst := 8, np := 1, pr := 7, aux := 0, aux2 := 0, mod := 0 }
def allOk (l : List Check) : Bool := l.all (fun c => match c with | .ok => true | _ => false)
/-- A geometry of 64 rows of 64 bytes. -/
def W.geom : State := W.setSt (fun st => { st with a := [(3, 65536), (5, BitVec.ofNat 64 (64 + 64 * 2 ^ 16 + 64 * 2 ^ 32))] })

def W.shutBy (k : Shutter) : State := W.geom.setTm (fun T => { T with shut := [(1056 + 9, k)] })

theorem witness_EngineCommandsIssue :
    (W.geom.pS 0 = true ∧ W.geom.dQueue (W.geom.coreOf 0) < 16 ∧ byHandle deOp = false ∧ W.geom.deArg 0 0 (1024 + 3) = 65536 ∧ W.geom.deArg 1 2 8 = 32768 ∧
      allOk (globalAlign 0 65536 ++ W.geom.deChecks 0 65536 2 ++ globalAlign 2 32768 ++ W.geom.deChecks 2 32768 2 ++
        W.geom.regCheck (deOp.mod == 1 && badDescReg ((W.geom.aR 0).toNat % 2 ^ 32) || (knownPairs (W.geom.knownRuns deOp 65536 32768 0)).any noPath)) = true) ∧
    (firstTrap (globalAlign 0 65538 ++ W.geom.deChecks 0 65538 2 ++ globalAlign 2 32768 ++ W.geom.deChecks 2 32768 2) =
        some { prio := 80, code := 0x0A, tinfo := 65538 } ∧
      firstTrap (globalAlign 0 65536 ++ W.geom.deChecks 0 65536 2) = none ∧ (W.geom.aR 9).toNat % 32 = 0 ∧ (W.aR 6).toNat % 32 = 0 ∧
      (W.aR 1).toNat % 32 ≠ 0) ∧
    allOk (W.geom.deChecks 0 65536 2 ++ W.geom.deChecks 2 32768 2 ++ W.geom.regCheck (badGeom (W.geom.aR 5).toNat 2)) = true ∧
    allOk (W.geom.deChecks 2 32768 16 ++ W.geom.deChecks 2 (32768 + 65536) 16) = true ∧
    (W.geom.iss.addrs = none ∧ (W.geom.aR 3).toNat % 32 = 0) ∧
    16 ≤ (W.geom.setTm (fun T => { T with cmds := List.replicate 16 { W.cmd 9 with start := 1000000 } })).dQueue 0 := by decide +kernel

theorem witness_ShutAndOpen :
    (W.pS 0 = true ∧ W.deArg 1 2 8 = 32768 ∧ allOk (W.deChecks 2 32768 2) = true) ∧
    allOk ((W.shutBy .shut).paneArgCheck 2 32768 2) = true ∧
    firstTrap (W.deChecks 2 (4096 * 63) 2) = some { prio := 61, code := 0x0C, tinfo := 0x1040 } ∧
    ((W.held 1065).tm.named (paneItem 2 (32768 / 4096 + 1)) = true ∧ firstTrap ((W.held 1065).paneArgCheck 2 32768 2) = none ∧
      (W.held 1065).dQueue 0 < 16) ∧
    (∀ j, j < 2 → (W.shutBy .shut).tm.named (paneItem 2 (32768 / 4096 + j)) = false ∧
      (W.shutBy .shut).handleRead 0 (paneItem 2 (32768 / 4096 + j)) = false) := by decide +kernel

/-- A fill of X pane 0 that may be performed. -/
def W.filling : State := W.setTm (fun T => { T with cmds := [W.cmd 9], shut := [(1056, .cmd)] })
def lineT : Table := { x0 := 0, sh := 0, lomode := 0, himode := 1, clo := 0, chi := 0, segs := [(0, 0), (0, 0)] }

theorem witness_EngineCommandsComplete :
    ((W.filling.team 0).cmds.find? (fun c => c.id == 1) = some (W.cmd 9) ∧ (W.cmd 9).isRing = false ∧ W.filling.engineReady 0 (W.cmd 9) = true ∧
      (W.cmd 9).dst % 4096 = 0) ∧
    ((W.filling.updCore 0 (fun K => { K with mq := [{ strand := 0, op := .mst { mxOp with xp := 0 }, tile := 3, x := 0 }] })).engineReady 0
      { W.cmd 9 with id := 2 } = false) ∧
    (0 < 1 ∧ (FVal.num false 3 2).isNan = false ∧ ((FVal.num false 3 2).sub (fp32.decode lineT.x0)).1.scale2 lineT.sh =
        .num false 1070435769529469910793714477087121352287059968 713623846352979940529142984724747568191373312 ∧
      1070435769529469910793714477087121352287059968 / 713623846352979940529142984724747568191373312 < lineT.segs.length ∧ lineT.lomode = 0 ∧ lineT.himode = 1) := by decide +kernel

def qEntry : QEntry := { queue := 9, gen := 0, asid := 1, data := List.replicate 64 1, pos := 0 }
def W.queue (l : List QEntry) (cap : Nat) : State :=
  { (W.setSt (fun st => { st with a := [(1, 9), (2, 4096), (5, 65536)], window := [qEntry, { qEntry with data := [], nacked := true, queue := 10 }] })) with
    queues := [(9, { isOpen := true, owner := 1, cap := cap, entries := l }), (10, { isOpen := true, owner := 1, cap := cap, entries := l })] }

/-- The runtime's strand, at its level, with the addresses of the placed page. -/
def W.runtime (l : List QEntry) : State :=
  (({ W.queue l 4 with cur := 262148 }).updTeam 65537 (fun T => { T with asid := 1, launch := 1 })).updStrand 262148 (fun st =>
    { st with level := 1, a := [(1, 9), (2, 65536)] })

/-- A strand whose replay window is full. -/
def W.fullWindow : State := (W.queue [] 4).setSt (fun st => { st with window := List.replicate 16 qEntry })

theorem witness_Queues :
    ((W.queue [] 4).pS 0 = true ∧ (W.queue [] 4).iss.addrs = none ∧ isSupervisor (teamOf (W.queue [] 4).cur) = false ∧ ((W.queue [] 4).aR 1).toNat = 9 ∧
      ((W.queue [] 4).queue 9).isOpen = true ∧ ((W.queue [] 4).queue 9).owner = (W.queue [] 4).tm.asid ∧ ((W.queue [] 4).aR 2).toNat = 4096 ∧
      (W.queue [] 4).st.window.length < 16) ∧
    (PaneFree (W.queue [] 4) 1 true ∧ PaneFree (W.queue [] 4) 1 false) ∧
    (((W.queue [] 4).strand 0).nextEntry false = some qEntry ∧
      ((W.queue [] 4).strand 0).nextEntry true = some { qEntry with data := [], nacked := true, queue := 10 } ∧
      ((W.queue [] 4).queue 9).gen = qEntry.gen ∧ ((W.queue [] 4).queue 9).entries.length < ((W.queue [] 4).queue 9).cap ∧ (W.queue [] 4).pooled < 2 ^ 20 ∧
      ((W.queue [qEntry] 1).queue 9).cap ≤ ((W.queue [qEntry] 1).queue 9).entries.length) ∧
    (((W.queue [qEntry] 1).queue 9).entries = qEntry :: [] ∧ qEntry.data.length = 64 ∧ ((W.queue [] 4).queue 9).entries = []) ∧
    (((W.queue [] 4).queue 4079).isOpen = false ∧ 1 ≤ ((W.queue [] 4).aR 5).toNat ∧ ((W.queue [] 4).aR 5).toNat ≤ 65536 ∧ ((W.queue [] 4).aR 0).toNat = 0 ∧
      (W.queue [] 4).ownsQueue 9 = true ∧ (W.queue [] 4).ownsQueue 4079 = false) ∧
    (¬ ((4080 ≤ 8 ∧ 8 < 4096) ∨ 8 < 4096 ∧ ((W.queue [] 4).queue 8).isOpen = true) ∧ 16 ≤ W.fullWindow.st.window.length ∧ (W.fullWindow.queue 9).isOpen = true ∧
      PaneFree W.fullWindow 1 false ∧ ((W.queue [] 4).aR 1).toNat % 64 ≠ 0 ∧ PaneFree (W.queue [] 4) 0 false ∧
      (((W.queue [] 4).strand 0).nextEntry false = some qEntry ∧ ({ W.queue [] 4 with queues := [] }.queue 9).isOpen = false)) ∧
    (((W.queue [] 4).queue 9).isOpen = true ∧ 65536 < ((W.aR 7)).toNat ∧ (4095 < 4096 ∧ 15 < ((W.queue [] 4).aR 2).toNat) ∧
      ¬ (4079 < 4080 ∧ ((W.queue [] 4).queue 4079).isOpen = true ∧ ((W.queue [] 4).queue 4079).owner = (W.queue [] 4).tm.asid)) ∧
    (let s' := (({ W.runtime [] with rcState := 3 } : State).globalCheck 65536 64 .read).1
     s'.homesMove = true ∧ s'.st.window = [] ∧ (s'.queue 9).isOpen = true) ∧
    ((W.runtime []).pS 0 = true ∧ isSupervisor (teamOf (W.runtime []).cur) = true ∧ ((W.runtime []).aR 1).toNat = 9 ∧ (W.runtime []).aR 2 = 65536 ∧
      okAt ((W.runtime []).globalCheck 65536 64 .read) (fun (pa, ty, _) => decide (targetOf pa = .dram ∧ ty = 0)) = true) ∧
    (let s' := ((W.runtime [qEntry]).globalCheck 65536 64 .write).1
     okAt ((W.runtime [qEntry]).globalCheck 65536 64 .write) (fun (pa, ty, _) => decide (targetOf pa = .dram ∧ ty = 0)) = true ∧
      (s'.queue 9).isOpen = true ∧ (s'.queue 9).owner = s'.tm.asid ∧ s'.st.window.length < 16 ∧ (s'.queue 9).entries = qEntry :: []) ∧
    ((W.runtime []).globalCheck 65536 64 .write).1.st.window = [] ∧ (((W.runtime []).globalCheck 65536 64 .write).1.queue 9).entries = [] := by
  unfold PaneFree
  refine ⟨?_, ?_, ?_, ?_, ?_, ?_, ?_, ?_, ?_, ?_, ?_, ?_⟩ <;> decide +kernel

/-- A job control block at the placed page, complete or not. -/
def W.jcb (expect done : Nat) : State := { W with mem := Memory.writeList W.mem (placeCode + 64) ({ expect := expect, done := done, flags := 0, ecode := 0, ecount := 0, edetail := 0, eaddr := 0 } : JcbData).bytes }
def jcbAt (x : State × Except TrapRec Nat) (f : State → Nat → Bool) : Bool := match x.2 with | .ok pa => f x.1 pa | .error _ => false

theorem witness_JobControl :
    (W.pS 0 = true ∧ jcbAt ((W.jcb 2 1).jcbAccess 65600) (fun s pa => !(s.readJcb pa).complete && s.st.stores == []) = true) ∧
    jcbAt ((W.jcb 2 2).jcbAccess 65600) (fun s pa => (s.readJcb pa).complete && s.st.stores == []) = true ∧
    ((W.aR 1).toNat % 64 ≠ 0 ∧ jcbAt (W.jcbAccess 0x900000) (fun _ _ => true) = false ∧
      jcbAt (W.moving.jcbAccess 65600) (fun s _ => s.homesMove) = true ∧ jcbAt (W.jcbAccess 65600) (fun s _ => !s.homesMove) = true) := by decide +kernel

/-- The placed page holding dwords from an offset on. -/
def W.data (off : Nat) (l : List Nat) : State := { W with mem := Memory.writeList W.mem (placeCode + off) ((l.map (leBytes 8)).flatten) }
/-- A task descriptor at 65600, its launch header at 65792 and its job control block at 65856, all the caller's. -/
def W.task (queue : Nat) : State :=
  (W.data 64 ([65792, 65856, queue] ++ List.replicate 17 0)).setSt (fun st => { st with a := [(1, 65600), (2, 65856), (3, BitVec.ofNat 64 queue)] })
def descOf (s : State) : Nat → Nat := dwordOf ((s.plinthRead s.tm.asid 65600 160).getD [])

theorem witness_TasksAndLaunches :
    ((W.task 575).pS 0 = true ∧ (W.task 575).st.stores = [] ∧ ((W.task 575).aR 1).toNat % 64 = 0 ∧
      ((W.task 575).plinthRead (W.task 575).tm.asid ((W.task 575).aR 1).toNat 160).isSome = true ∧ (W.task 575).taskRefusal (descOf (W.task 575)) = none ∧
      (W.task 575).freeTask = some 0) ∧
    ((W.task 576).plinthRead (W.task 576).tm.asid ((W.task 576).aR 1).toNat 160).isSome = true ∧ (W.task 576).taskRefusal (descOf (W.task 576)) = some 1 ∧
    (((W.task 576).aR 2).toNat % 64 = 0 ∧ 575 < ((W.task 576).aR 3).toNat % 1024) ∧
    (((W.task 575).aR 3).toNat % 1024 < 576 ∧ (W.task 575).foreignQueue (((W.task 575).aR 3).toNat % 1024) = false) ∧
    (3 ≤ 575 ∧ { W.task 3 with streams := [(3, { live := true, asid := 2 })] }.foreignQueue (((W.task 3).aR 3).toNat % 1024) = true) ∧
    ((W.aR 1).toNat % 64 ≠ 0 ∧ (W.task 575).homesMove = false ∧ W.moving.homesMove = true ∧ (W.moving.aR 1).toNat % 64 = 0 ∧ W.moving.pS 0 = true) := by
  refine ⟨?_, ?_, ?_, ?_, ?_, ?_, ?_⟩ <;> decide +kernel

/-- Ranges of pages: one that holds no mapped page, one that holds the placed page, and an unaligned one. -/
def W.range (base n count : Nat) : State :=
  W.setSt (fun st => { st with a := [(1, BitVec.ofNat 64 base), (2, BitVec.ofNat 64 n), (3, BitVec.ofNat 64 count)] })

/-- An index that holds the key of zeros at entry 3, and one whose bucket 0 is full of entries in use. -/
def pfx0 : Prefix := { asid := 1, key := 0, npg := 1, lookup := 0, frames := [placeCode] }
def W.known (va n : Nat) : State := { W.range 65600 va n with pfx := [(3, pfx0)] }
def W.crowded : State :=
  { W.range 65600 65536 1 with pfx := (List.range 16).map (fun i => (i, { pfx0 with asid := 2, key := i + 1 })), mapCount := [(placeCode, 17)] }
def isNoneO {σ α : Type} (x : σ × Option α) : Bool := x.2.isNone

theorem witness_PrefixesAndPages :
    (((W.known 131072 1).findPrefix (W.known 131072 1).tm.asid 0) = some (3, pfx0) ∧ (W.known 131072 1).readKey 65600 = some 0 ∧
      131072 % 65536 = 0 ∧ 131072 + 65536 * pfx0.npg ≤ 2 ^ 56 ∧ (((W.known 131072 1).touchPrefix 3).freeEntries 1 131072 1).2 = some [114704] ∧
      isNoneO (((W.known 65536 1).touchPrefix 3).freeEntries 1 65536 1) = true) ∧
    (isNoneO ((W.range 65600 65536 1).publication 0 2) = true ∧ (W.range 65600 65536 1).homesMove = false) ∧
    (let u := ((W.range 65600 65536 1).publication 0 2).1
     (u.mappedPages u.tm.asid 65536 1).isSome = true ∧ u.readKey 65600 = some 0 ∧ u.findPrefix u.tm.asid 0 = none ∧
      (List.range 16).find? (fun i => (u.bucket (keyBucket 0)).all (fun q => q.1 != 16 * keyBucket 0 + i)) = some 0) ∧
    ((((W.known 65536 1).publication 0 2).1.findPrefix 1 0) = some (3, pfx0) ∧ ((W.range 65600 131072 1).publication 0 2).1.mappedPages 1 131072 1 = none) ∧
    (let u := (W.crowded.publication 0 2).1
     u.findPrefix u.tm.asid 0 = none ∧ (List.range 16).all (fun i => (u.bucket (keyBucket 0)).any (fun q => q.1 == 16 * keyBucket 0 + i)) = true ∧
      (∀ q ∈ u.bucket (keyBucket 0), u.idle q.2 = false)) ∧
    (((W.range 65536 65536 0).pagesWithin 1 65536 131072).filter (fun l => !ptePin l.pte) =
        [{ va := 65536, at_ := 114696, pte := 131103, large := false }] ∧ ptePA 131103 = 131072 ∧ 114696 + 8 ≤ 131072 ∧
      W.moving.homesMove = true) ∧
    (((W.range 65600 0 0).readKey ((W.range 65600 0 0).aR 1).toNat).isSome = true ∧ (W.range 65600 0 0).pfx = []) ∧
    ((W.range 0 0 257).st.stores = [] ∧ ((W.range 0 0 0).aR 3).toNat < 1 ∧ 256 < ((W.range 0 0 257).aR 3).toNat) ∧
    (((W.range 131072 65536 0).aR 1).toNat % 65536 = 0 ∧ (((W.range 131072 65536 0).aR 1) + ((W.range 131072 65536 0).aR 2)).toNat % 65536 = 0 ∧
      ((W.range 131072 65536 0).pagesWithin (W.range 131072 65536 0).tm.asid 131072 196608).filter (fun l => !ptePin l.pte) = []) ∧
    (((W.range 65536 65536 0).pagesWithin (W.range 65536 65536 0).tm.asid 65536 131072).length = 1 ∧ ((W.range 65537 65536 0).aR 1).toNat % 65536 ≠ 0) := by
  refine ⟨?_, ?_, ?_, ?_, ?_, ?_, ?_, ?_, ?_, ?_⟩ <;> decide +kernel

/-- The strand at a level. -/
def W.at (l : Nat) : State := W.setSt (fun st => { st with level := l, a := [(1, 65535), (2, 65600), (3, 1)] })

theorem witness_PrivilegedInstructions :
    (W.at 1).pS 0 = true ∧ (W.at 1).rs.level < 2 ∧ (W.at 0).rs.level < 1 ∧ 2 ≤ (W.at 2).rs.level ∧ 1 ≤ (W.at 1).rs.level ∧
    (((W.at 2).levelRead ((W.at 2).aR 2).toNat 32).2.map (·.length) = some 32) ∧ (W.at 1).aR 9 = 0 ∧ (W.at 1).aR 3 ≠ 0 ∧
    (W.at 2).rcState = 0 ∧ { W.at 2 with rcState := 1 }.rcState ≠ 0 := by decide +kernel

def ringOf (pub rsv n : Nat) : Ring :=
  { nslot := n, slotb := 65536, rsv := rsv, pub := pub, times := (List.range (rsv - pub)).map (fun i => (pub + i, 0, 0)) }
/-- A stream of the caller. -/
def strm : Stream := { live := true, asid := 1, rungs := [(1, 8, 16)], frame := ringOf 0 0 4, bits := ringOf 0 0 4, rtimeout := 100, codec := 1, fprog := 65536 }
def W.stream (st : Stream) : State := { (W.setSt (fun q => { q with a := [(1, 3), (2, 0)] })) with streams := [(3, st)] }
/-- The strand works on a frame of its stream. -/
def W.framed (st : Stream) (k : Nat) : State := (W.stream st).updLaunch 1 (fun L => { L with job := some (3, k) })
def jobK (k : Nat) : Job := { k := k, tk := 0, dk := 5 }

/-- A task of the frame is not complete. -/
def W.late : State := { (W.framed { strm with jobs := [jobK 0], minrung := 1 } 0) with
  tasks := [(0, some { seq := 1, asid := 1, launch := 2, reads := [], writes := [], wfresh := false, cost := 8, job := some (3, 0), waits := [], rename := [] })] }

theorem witness_Streams :
    ((W.framed { strm with jobs := [jobK 0] } 0).jobOn 3 = some 0 ∧ ({ strm with jobs := [jobK 0] } : Stream).job 0 = some (jobK 0) ∧
      (W.framed { strm with jobs := [jobK 0] } 0).cycle + 256 * (W.framed { strm with jobs := [jobK 0] } 0).remaining 3 0 ≤ (jobK 0).dk ∧
      (jobK 0).dk < W.late.cycle + 256 * W.late.remaining 3 0 ∧ W.late.jobOn 3 = some 0 ∧
      ({ strm with rung := 0, minrung := 1 } : Stream).rung < ({ strm with rung := 0, minrung := 1 } : Stream).minrung ∧ (jobK 0).drop = false ∧
      (jobK 0).published = false) ∧
    ((ringOf 0 1 4).pub ≤ 0 ∧ 0 < (ringOf 0 1 4).rsv ∧ (ringOf 0 1 4).ready.testBit (0 % (ringOf 0 1 4).nslot) = false ∧
      (ringOf 0 1 4).rsv ≤ (ringOf 0 1 4).pub + 64 ∧ (ringOf 0 4 4).rsv - (ringOf 0 4 4).pub = (ringOf 0 4 4).nslot ∧
      ({ W.stream strm with rcState := 1 } : State).rcState ≠ 0) ∧
    ({ strm with closing := true, encJobs := [(0, 5, 8, 16)] }.jobs = [] ∧ (∃ j ∈ ({ strm with encJobs := [(0, 5, 8, 16)] } : Stream).encJobs, j.1 ∉ strm.deferred) ∧
      (∀ j ∈ strm.encJobs, j.1 ∈ strm.deferred)) ∧
    ((W.stream strm).pS 0 = true ∧ (W.stream strm).ownsStream ((W.stream strm).aR 2) = false ∧ (W.stream strm).ownsStream ((W.stream strm).aR 1) = true ∧
      (W.stream strm).jobOn 3 = none ∧ (strm.frame.reserve 0 0).isSome = true ∧ ({ strm with frame := ringOf 0 4 4 }.frame.reserve 0 0) = none ∧
      strm.frame.publish 0 = none ∧ ({ strm with frame := ringOf 0 1 4 }.frame.publish 0).isSome = true ∧ (W.stream strm).rcState = 0) ∧
    (strm.closed = false ∧ strm.closing = false ∧ strm.jobs.length < 2 ∧ strm.deferred = []) ∧
    (2 ≤ { strm with jobs := [jobK 0, jobK 1] }.jobs.length ∧ { strm with closing := true, jobs := [jobK 0] }.jobs ≠ [] ∧
      { strm with deferred := [2] }.deferred = 2 :: []) := by decide +kernel

/-- An encoder entry for band 1 of frame 1 of stream 3, in the queue of engine 0. -/
def encEntry : QEntry := { queue := 4080, gen := 0, asid := 1, data := leBytes 64 (3 + 65536 + 2 ^ 64), pos := 0 }
def W.coded (st : Stream) : State := { (W.stream st) with queues := [(4080, { isOpen := true, owner := 65536, cap := 65536, entries := [encEntry] })] }
def held : Stream := { strm with nextK := 2, encJobs := [(0, 5, 8, 16), (1, 9, 8, 16)], encHeld := [(0, 0, 0)] }

theorem witness_Encoders :
    ({ strm with frame := ringOf 0 1 4 }.frame.stallAt { strm with frame := ringOf 0 1 4 }.rtimeout = some 100) ∧
    (((W.coded strm).queue (4080 + 0)).entries = encEntry :: [] ∧ dwordOf encEntry.data 0 = 65539 ∧ dwordOf encEntry.data 1 = 1 ∧
      ((W.coded strm).stream (65539 % 512)).live = true ∧ ((W.coded strm).stream (65539 % 512)).asid = encEntry.asid ∧ 65539 / 2 ^ 32 = 0 ∧
      65539 / 512 % 128 = 0 ∧ (∀ i, i ∈ [2, 3, 4, 5, 6, 7] → dwordOf encEntry.data i = 0) ∧
      65539 / 2 ^ 16 % 2 ^ 16 < bandCount (((W.coded strm).stream (65539 % 512)).dims 1).2 ∧
      1 = ((W.coded strm).stream (65539 % 512)).encK + 1 ∧ (∀ h ∈ ((W.coded strm).stream (65539 % 512)).encHeld, h.1 ≠ 1)) ∧
    ((0, 0, 0) ∈ held.encHeld ∧ dwordOf ({ encEntry with asid := 2 } : QEntry).data 0 % 512 = 3 ∧
      ((W.coded strm).stream 3).asid ≠ 2) ∧
    (({ held with encBand := 1, encHeld := [(0, 1, 0)] } : Stream).bandReady = true ∧
      bandCount (({ held with encBand := 1 } : Stream).dims 0).2 ≤ 1 + 1 ∧ held.closed = false ∧ held.bits.rsv - held.bits.pub ≠ held.bits.nslot) ∧
    (held.bandReady = true ∧ held.encBand + 1 < bandCount (held.dims held.encK).2) ∧
    (held.repeatAt.isSome = true ∧ (W.stream { held with bits := ringOf 4 4 4 }).bitsFull 3 = true) ∧
    ({ held with encWait := some (0, true) }.encWait.isSome = true ∧ (W.stream { held with encWait := some (0, true) }).bitsFull 3 = false ∧
      (held.bits.reserve (W.stream held).cycle 0).isSome = true) := by decide +kernel

def ringOp : OpDE := { g := 0, ssp := 2, dsp := 0, src := 8, dst := 0, np := 0, pr := 0, aux := 1, aux2 := 0, mod := 0 }
/-- Ring ports: enabled and live, with a1 naming port and tag. -/
def W.ring (port : Nat) : State :=
  { (W.setSt (fun st => { st with a := [(1, BitVec.ofNat 64 (port + (2 ^ 16 + 8) * 2 ^ 32))] })) with ports := [(0, { en := true, next := 1 }), (1, { en := true, next := 1 })] }
/-- A pair that waits at port 1, revolution 1 of frame 1. -/
def ringWait : RingCmd := { team := 0, cmd := 1, send := true, tag := 2 ^ 16 + 8, units := 1, since := 0 }
def ringCmdOf (i : Instr) : Cmd := { id := 1, strand := 0, op := i, src := 32768, dst := 32768, n := 1, items := [1064], ring := some (1, 2 ^ 16 + 8) }
def W.paired (send : Bool) : State :=
  { ((W.ring 1).setTm (fun T => { T with cmds := [ringCmdOf (if send then .rsend ringOp else .rrecv { ringOp with ssp := 0, dsp := 2, src := 0, dst := 8 })] })) with
    ringCmds := [(1, [{ ringWait with send := send }])] }

theorem witness_RingPorts :
    ((W.ring 1).pS 0 = true ∧ ((W.ring 1).aR 1).toNat % 4 = 1 ∧ ((W.ring 1).aR 1).toNat / 2 ^ 32 = 2 ^ 16 + 8 ∧ (W.ring 1).deArg 0 2 8 = 32768 ∧
      allOk ((W.ring 1).deChecks 2 32768 1) = true ∧ ((W.ring 3).aR 1).toNat % 4 = 3 ∧ (W.ring 1).dQueue ((W.ring 1).coreOf 0) < 16 ∧
      (W.ring 1).portDead 1 = false ∧ (W.ring 2).portDead 2 = true ∧ (W.ring 2).tm.cmds = [] ∧
      firstTrap ((W.ring 1).deChecks 2 (4096 * 64) 1) = some { prio := 61, code := 0x0C, tinfo := 0x1040 } ∧
      16 ≤ ((W.ring 1).setTm (fun T => { T with cmds := List.replicate 16 { W.cmd 9 with start := 1000000 } })).dQueue 0) ∧
    (({ W.paired true with rcState := 3 } : State).holding = true ∧ ringSpace (.rrecv { ringOp with ssp := 2, dsp := 0 }) = 0 ∧
      ((W.paired true).setTm (fun T => { T with cmds := { W.cmd 9 with id := 0, items := [1064] } :: T.cmds })).engineReady 0 (ringCmdOf (.rsend ringOp)) = false) ∧
    (((W.paired true).ringQueue 1).find? (fun r => r.tag == 2 ^ 16 + 8 && r.send == true) = some ringWait ∧ (W.paired true).holding = false ∧
      ((W.paired true).team 0).cmds.find? (fun c => c.id == 1) = some (ringCmdOf (.rsend ringOp)) ∧
      (W.paired true).engineReady 0 (ringCmdOf (.rsend ringOp)) = true ∧ ringSpace (.rsend ringOp) = 2) ∧
    (((W.paired false).ringQueue 1).find? (fun r => r.tag == 2 ^ 16 + 8 && r.send == false) = some { ringWait with send := false } ∧
      (W.paired false).engineReady 0 (ringCmdOf (.rrecv { ringOp with ssp := 0, dsp := 2, src := 0, dst := 8 })) = true ∧
      ringSpace (.rrecv { ringOp with ssp := 0, dsp := 2, src := 0, dst := 8 }) = 2 ∧ (List.replicate 4612 0).length = 4612 * 1 ∧ 32768 % 4096 = 0) ∧
    (1 < 3 ∧ ((W.paired true).port 1).aborted = false ∧
      (∀ r ∈ (W.paired true).ringQueue 1, r.tag / 2 ^ 16 % 2 ^ 16 = 1 ∧ r.tag / 8 % 2 ^ 11 = 1) ∧ (W.paired true).ringQueue 1 ≠ [] ∧
      (2 ^ 63 + 2 ^ 32 + 2 ^ 21) / 2 ^ 32 % 2 ^ 16 = 1 ∧ (2 ^ 63 + 2 ^ 32 + 2 ^ 21) / 2 ^ 21 % 2 ^ 11 = 1) := by decide +kernel

theorem witness_SecurityRequests :
    NMap.get {} W.spdm 0 = ({} : Spdm) ∧
    NMap.get {} ({ W with spdm := [(0, { version := true, caps := true, algs := true, session := true, secured := true })] } : State).spdm 0 =
      { version := true, caps := true, algs := true, session := true, secured := true } ∧ 1 < 2 := by decide +kernel

/-- Core 0 with a swap from team 0 to team 1, requested and reached, or not. -/
def W.swap (w : Swap) : State :=
  (((W.updTeam 1 (fun _ => { status := .loading, launch := 1 })).updTeam 2 (fun _ => { status := .saved, launch := 1, wp := 4, xp := 4 })).updCore 0 (fun K => { K with swap := some w, bank0 := .loading 1, bank1 := .draining [2] 5 }))
def swapOf (r e : Option Nat) : Swap := { incoming := some 1, outgoing := [0], request := r, swapEnd := e, loaded := 7 }
/-- Team 1, that has left core 0 with X pane 0 still there, and one that has come back without it. -/
def W.leaving (i : Nat) : State := W.updTeam 1 (fun _ => { status := .saved, core := 0, spillCore := 0, xp := 4, toSpill := [i] })
def W.coming (i : Nat) : State := W.updTeam 1 (fun _ => { status := .bound, core := 0, xp := 4, toFill := [i] })

theorem witness_Preemption :
    (((W.swap (swapOf none none)).core 0).bank 0 = .loading 1 ∧ ((W.swap (swapOf none none)).core 0).swap = some (swapOf none none) ∧
      ((W.swap (swapOf none none)).core 0).bank 1 = .draining [2] 5) ∧
    ((swapOf (some 8) none).request = some 8 ∧ (swapOf (some 8) none).swapEnd = none ∧
      (∀ u ∈ (swapOf (some 8) none).outgoing, ((W.swap (swapOf (some 8) none)).team u).status = .bound ∧ (W.swap (swapOf (some 8) none)).exiting u = false) ∧
      ((W.swap (swapOf (some 8) none)).setSt (fun st => { st with run := .exited })).exiting 0 = true ∧
      (((W.swap (swapOf none none)).team 2).wp ≤ 1024 ∧ 3 < ((W.swap (swapOf none none)).team 2).wp) ∧
      (∀ p ∈ (W.swap (swapOf (some 8) none)).launches, p.2.gang = false)) ∧
    ((swapOf (some 8) (some 110)).swapEnd = some 110 ∧ (W.swap (swapOf (some 8) (some 110))).rcState ≠ 2 ∧
      ((W.swap (swapOf (some 8) (some 110))).cluster (clusterOf 0)).stop = false ∧ 1 ∉ [0] ∧
      ((W.swap (swapOf (some 8) (some 110))).team 1).nstr ≤ 4 ∧ ((W.swap (swapOf (some 8) (some 110))).team 0).status = .bound ∧
      ((W.swap (swapOf (some 8) (some 110))).team 1).rerun = [] ∧
      (∀ k ∈ (W.swap (swapOf (some 8) (some 110))).members 1, ((W.swap (swapOf (some 8) (some 110))).strand k).parked = none)) ∧
    (((W.swap (swapOf none none)).core 1).swap = none ∧
      (W.swap (swapOf (some 8) none)).canIssue 0 = true ∧
      ((W.swap (swapOf (some 8) none)).core 0).slot = some 0 ∧ ((W.swap (swapOf (some 8) none)).core 0).bank1 ≠ .free) := by decide +kernel

theorem witness_SpillAndFill :
    ((W.leaving 31).nextWork 0 = some (false, 1, 31) ∧ (W.coming 31).nextWork 0 = some (true, 1, 31) ∧ (W.leaving 1055).nextWork 0 = some (false, 1, 1055) ∧
      W.nextWork 0 = none ∧ ((W.leaving 31).core 0).work = none ∧ (W.leaving 31).wants 0 = [] ∧ NMap.get false (((W.coming 31).updTeam 1 (fun T => { T with tdisc := [(31, true)] })).team 1).tdisc 31 = true ∧
      (∀ p ∈ (W.swap (swapOf (some 8) (some 110))).teams, p.2.owed = false)) ∧
    (((W.leaving 1056).startUnits.core 0).work = some (false, 1, 1056) ∧ 1056 ∈ ((W.leaving 1056).team 1).toSpill ∧
      ((W.coming 1056).startUnits.core 0).work = some (true, 1, 1056) ∧ 1056 ∈ ((W.coming 1056).team 1).toFill ∧ ((W.coming 1056).team 1).core = 0 ∧
      ((W.leaving 1056).updCore 0 (fun K => { K with touched := [(1, 5), (1, 1056)] })).wants 0 = [(1, 5)] ++ (1, 1056) :: [] ∧
      (1, 5) ∉ (W.leaving 1056).spills 0 ∧ (1, 5) ∉ (W.leaving 1056).fills 0 ∧ (1, 1056) ∈ (W.leaving 1056).spills 0 ∧ (1, 1056) ∈ (W.coming 1056).fills 0 ∧
      NMap.get false ((W.coming 1056).team 1).pdisc 1056 = false) := by
  refine ⟨?_, ?_⟩ <;> decide +kernel

/-- A launch at the distributor: of the placed code where its header reads well, and of nothing. -/
def W.launched (hdr : Nat) : State :=
  let s := W.data 256 ([65536, 0, 1 + 256 + 2 ^ 40] ++ List.replicate 13 0)
  { s with strands := [], teams := [], cores := [], ctxN := 640, launches := [(1, { live := true, hdrVa := hdr, subAsid := 1, queue := 512, isReady := true, jcb := none })] }

/-- The machine as a selection finds it, and the choice it makes. -/
def selecting (s : State) : State := ({ s with cycle := if s.lastSel = 0 then s.cycle else max s.cycle (s.lastSel + 4) } : State).noteReady
def reserved (s : State) : State :=
  { ((selecting s).forEach (selecting s).mayLaunches State.touchHeader).reserve (selecting s).mayLaunches with lastSel := (selecting s).cycle }
def chosen (s : State) : Option Nat :=
  (reserved s).select ((selecting s).mayLaunches.filter (fun l =>
    ((selecting s).mayLaunches.filter (reserved s).bindable).contains l || (reserved s).mayPreempt l))
def hdrAt (s : State) (f : LaunchHdr → Bool) : Bool := match (reserved s).readHeader 1 with | .ok h => f h | .error _ => false

theorem witness_TeamsComeAndGo :
    ((W.setSt (fun st => { st with run := .exited })).canExit 0 = true ∧
      ((W.setSt (fun st => { st with run := .exited })).team 0).nstr ≤ 4 ∧ W.canExit 0 = false ∧ (selecting W).mayLaunches = []) ∧
    (chosen (W.launched 65792) = some 1 ∧ (reserved (W.launched 65792)).bindable 1 = true ∧
      ((reserved (W.launched 65792)).launch 1).killed = false ∧ ((reserved (W.launched 65792)).launch 1).task = none ∧
      ((reserved (W.launched 65792)).launch 1).bound = 0 ∧ ((reserved (W.launched 65792)).launch 1).slots = [] ∧
      hdrAt (W.launched 65792) (fun h => h.cores == 1 && ((reserved (W.launched 65792)).place 1 h).isSome) = true ∧
      (reserved (W.launched 65792)).freeSlot.isSome = true) ∧
    (chosen (W.launched 0) = some 1 ∧ (match (reserved (W.launched 0)).readHeader 1 with | .error _ => true | .ok _ => false) = true) := by
  decide +kernel

def W.cluster (K : Cluster) : State := { W with clusters := [(1, K)], courses := [(0, { stretch := some 5 })] }

theorem witness_HeatAndClocks :
    (List.replicate 48 (105 * 256)).length = 48 ∧
    ((W.cluster { stop := true }).cluster (8 * 0 + 1) = { stop := true } ∧ (W.cluster { stop := true }).clusterM (8 * 0 + 1) = false ∧
      (∀ i, i < 4 → (W.cluster { stop := true }).residents (4 * (8 * 0 + 1) + i) = [])) ∧
    (({} : Cluster).stop = false ∧ ({ target := 0 } : Cluster).target ≠ ({ target := 0 } : Cluster).pattern ∧ ({} : Cluster).target = ({} : Cluster).pattern ∧
      ({ dwellEnd := some 9 } : Cluster).dwellEnd = some 9 ∧ ({} : Cluster).dwellEnd = none) ∧
    (W.isCompute 0 = true ∧ NMap.wf {} W.cores = true ∧ ((W.cluster {}).course 0).refx2 = false ∧ (W.course 1).stretch = none) ∧
    (((W.cluster {}).course 0).stretch = some 5 ∧ (W.cluster {}).cycle + 1 < 5 + 4 ∧ 5 + 4 ≤ { W.cluster {} with cycle := 8 }.cycle + 1) := by decide +kernel

def W.change (rc map : Nat) : State := { W with rcState := rc, pendMap := map, cls := 1, teams := [], launches := [], strands := [{ pend := [{ loadP with global := false, done := false }] }].map (fun st => (0, st)) }

theorem witness_RoleChanges :
    ((W.change 1 63).rcState = 1 ∧ (W.change 1 63).held = [] ∧ legalMap (W.change 1 63).cls (W.change 1 63).boot.cfence 63 = false) ∧
    (legalMap (W.change 1 6).cls (W.change 1 6).boot.cfence 6 = true ∧ (W.change 1 6).testMap 6 = true ∧
      ({ W.change 1 6 with streams := [(1, { strm with rungs := [(100000000, 8, 8)] })] }.testMap 6 = false)) ∧
    ((W.change 1 6).strand (W.change 1 6).rcStrand).pend = [{ loadP with global := false, done := false }] ∧
    ((W.change 2 6).rcState = 2 ∧ (W.change 2 6).drained = true ∧ (W.change 3 6).rcState = 3 ∧ (W.change 0 6).rcState ≠ 3) := by decide +kernel

def W.start (b : Boot) : State := { W with boot := b, flash := { jnext := 1 } }

theorem witness_Starts :
    ((W.start { step := 1 }).boot.powered = true ∧ (W.start { step := 1 }).boot.ready = false ∧ (W.start { step := 1 }).boot.fatal = false ∧
      (W.start { step := 1 }).boot.recovery = false ∧ (W.start { step := 1 }).flash.jnext ≠ (W.start { step := 1 }).boot.slot ∧
      (W.start { step := 1 }).boot.variant = 0 ∧ (W.start { step := 1 }).boot.cfence = 0 ∧ (W.start { step := 1 }).boot.chfence = 0 ∧
      (W.start { step := 1 }).flash.cfence = 0 ∧ (W.start { step := 1 }).flash.chfence = 0 ∧ (W.start { step := 1 }).cls < 3) ∧
    ((W.start { step := 2 }).boot.step = 2 ∧ (W.start { step := 6 }).boot.step = 6 ∧ (W.start { step := 9 }).boot.step = 9 ∧
      ({ W.start { step := 8 } with cls := 1, flash := { jnext := 1, cpref := 6 } } : State).boot.step = 8 ∧ legalMap 1 0 6 = true) ∧
    ((W.start { step := 10 }).boot.step = 10 ∧ 7 ∈ [1, 3, 4, 5, 7] ∧ (W.start { powered := false }).boot.powered = false ∧
      (W.start { ready := true }).boot.ready = true ∧ (W.start { recovery := true }).boot.recovery = true) ∧
    imageOk ((W.start { recovery := true }).mem.filter (fun (c : Host.Cell) => decide (c.1 < 0))) (W.start { recovery := true }).flash.floor = false := by
  decide +kernel

/-- The window on the placed page. -/
def W.window : State := { W with b2en := true, b2asid := 1, boot := { ready := true } }
def cellsAt (x : State × Option (List (Nat × Nat))) (n : Nat) : Bool := match x.2 with | some l => l.length == n && decide ((l.map (·.1)).Nodup) | none => false

/-- An access of the window would reach normal memory. -/
def hitsNormal (x : State × Option (List (Nat × Nat))) : Bool := match x.2 with | some l => l.any (fun c => decide (c.2 < 2)) | none => false

theorem witness_WindowAccesses :
    (({ W.window with rcState := 3 } : State).rcState = 3 ∧ ({ W.window with rcState := 3 } : State).boot.recovery = false ∧
      hitsNormal (({ W.window with rcState := 3 } : State).bar2Cells 1 (W.window.bar2Va 65536) .read 8) = true ∧
      hitsNormal (({ W.window with rcState := 3 } : State).bar2Cells 1 (W.window.bar2Va 65536) .write 8) = true ∧
      (NMap.get {} W.window.ide 0).state ≠ 2 ∧ (NMap.get {} ({ W.window with ide := [(1, { state := 2 })] } : State).ide 1).state = 2 ∧
      (({ W.window with held := [.bar2Read 1 65536 8] } : State).held.any HeldReq.isBar2) = true ∧ W.window.boot.ready = true ∧ W.boot.ready = false ∧
      ({ W with boot := { recovery := true } } : State).boot.recovery = true) ∧
    (W.boot.recovery = false ∧ { W with rcState := 3 }.rcState = 3 ∧ W.rcState ≠ 3 ∧ W.rcState ≠ 4 ∧ W.b2en = false ∧ W.window.b2en = true) ∧
    ((W.window.bar2Cells 1 (W.window.bar2Va 0) .read 8).2.isNone = true ∧ (W.window.bar2Cells 1 (W.window.bar2Va 0) .write 8).2.isNone = true) ∧
    (cellsAt (W.window.bar2Cells 1 (W.window.bar2Va 65536) .read 8) 8 = true ∧ cellsAt (W.window.bar2Cells 1 (W.window.bar2Va 65536) .write 8) 8 = true ∧
      (match (W.window.bar2Cells 1 (W.window.bar2Va 65536) .read 8) with
        | (s', some l) => l.all (fun c => s'.sysByte c.1 == Memory.read s'.mem c.1) | (_, none) => false) = true) ∧
    (2 ≠ 4 ∧ 2 ≠ 8 ∧ 2 < 3 ∧ (8 = 4 ∨ 8 = 8) ∧ 2 ≤ 2) := by decide +kernel

/-- Ready for the host, with a descriptor of the placed strand's mailbox 15. -/
def W.ready : State := { W with boot := { ready := true }, streams := [(3, { strm with frame := { ringOf 0 1 4 with stalled := some 0 } })], msixOn := [(600, true)] }

/-- The launch has two teams, of which one was ever bound, or both and one is gone. -/
def W.two (bound : Nat) : State := W.ready.updLaunch 1 (fun L => { L with hdr := some { placeHdr with cores := 2 }, bound := bound })

theorem witness_ControlBlock :
    (30 ≤ 38 ∧ 38 ≤ 38 ∧ (∀ k, 30 ≤ k → k ≤ 38 → (2 ^ 39 : Nat) ≠ 2 ^ k) ∧ (W.ready.stream 3).live = true ∧
      (W.ready.stream 3).frame.stalled = some (W.ready.stream 3).frame.pub ∧ (W.stream strm |>.stream 3).frame.stalled = none ∧ (W.ready.stream 4).live = false) ∧
    (575 < 576 ∧ 512 ≤ 575 ∧ 511 < 512 ∧ 515 % 2048 < 516 ∧ 516 ≤ 600 % 2048 ∧ NMap.get false W.ready.msixOn (600 % 2048) = true ∧
      NMap.get false W.ready.msixOn (516 % 2048) = false) ∧
    (W.boot.ready = false ∧ W.ready.boot.ready = true ∧ W.ready.launchOf (0 / 2 ^ 32 % 2 ^ 32) = none) ∧
    (W.ready.launchOf (0x10000000F / 2 ^ 32 % 2 ^ 32) = some 1 ∧ (W.ready.launch 1).hdr = some placeHdr ∧ 0x10000000F / 2 ^ 16 % 256 < placeHdr.cores ∧
      0x10000000F / 256 % 4 < placeHdr.strands ∧ W.ready.slotOf 1 (0x10000000F / 2 ^ 16 % 256) = some 0 ∧
      (W.ready.strand (4 * 0 + 0x10000000F / 256 % 4)).run.over = false) ∧
    ((W.two 1).launchOf (0x100010000 / 2 ^ 32 % 2 ^ 32) = some 1 ∧ ((W.two 1).launch 1).hdr = some { placeHdr with cores := 2 } ∧
      0x100010000 / 2 ^ 16 % 256 < 2 ∧ 0x100010000 / 256 % 4 < 1 ∧ (W.two 1).slotOf 1 1 = none ∧ ¬ 1 < ((W.two 1).launch 1).bound ∧
      1 < ((W.two 2).launch 1).bound ∧ placeHdr.cores ≤ 0x100010000 / 2 ^ 16 % 256) ∧
    (0 / 65536 % 2 ^ 36 * 65536 < W.memtop * 2 ^ 30 ∧ W.memtop * 2 ^ 30 ≤ 2 ^ 51 / 65536 % 2 ^ 36 * 65536) ∧
    ((1 = 1 ∧ W.boot.ready = false ∧ 65536 ≤ 65536 ∧ 65536 < 0x100000) ∧ 1 ≤ 1 ∧ 2 < 3 ∧ W.ready.boot.ready = true ∧ 10 % 8 = 2 ∧ 5 % 4 = 1) := by
  refine ⟨⟨by decide, by decide, fun k h1 h2 => ?_, by decide +kernel⟩, by decide +kernel⟩
  exact Nat.ne_of_gt (Nat.pow_lt_pow_right (by decide) (by omega))

def W.parked (code : Nat) (status : TeamStatus) : State :=
  (W.updTeam 2 (fun _ => { status := status, launch := 1, asid := 1, nstr := 1 })).updStrand 8 (fun st => { st with run := .parked, parked := some { code := code } })

theorem witness_Dispositions :
    (8 = 4 * 2 + 0 ∧ 2 ≤ 2 ∧ ((W.parked 0x41 .bound).strand 8).run = .parked ∧ ((W.parked 0x41 .bound).strand 8).parked = some { code := 0x41 } ∧
      ((W.parked 0x81 .bound).strand 8).parked = some { code := 0x81 } ∧ ¬ 0x80 ≤ 0x41 ∧ 0x80 ≤ 0x81 ∧
      ((W.parked 0x41 .bound).team 2).status = .bound ∧ ((W.parked 0x41 .saved).team 2).status = .saved ∧ ((W.parked 0x41 .bound).strand 8).pend = [] ∧
      ((W.parked 0x41 .bound).launch ((W.parked 0x41 .bound).team 2).launch).killed = false ∧ 2 ∉ W.tm.cmds.map (·.id) ∧ teamOf 8 = 2) ∧
    (W.strand (4 * 0 + 0)).run ≠ .parked ∧ (W.isCompute 0 = true ∧ W.isCompute 5 = false) := by decide +kernel

/-! A fetch and an issue, as they stand. -/

def okW {σ ε α : Type} (x : σ × Except ε α) (f : α → Bool) : Bool := match x.2 with | .ok v => f v | .error _ => false

theorem okW_eq {σ ε α : Type} {x : σ × Except ε α} {v : α} [DecidableEq α] (h : okW x (fun a => decide (a = v)) = true) : x = (x.1, .ok v) := by
  obtain ⟨s, e⟩ := x
  cases e with
  | ok a => simp only [okW, decide_eq_true_eq] at h; rw [h]
  | error e => exact absurd h (by simp [okW])

def fetchFrom (s : State) (u : Nat) : State × List Renewal := ((s.takeCore (s.coreOf (teamOf s.cur)) s.cur).beforeIssue u).fetchView
def fetchAt (s : State) (u : Nat) : State := (fetchFrom s u).1.passPadding (fetchFrom s u).2 64
def firstWord (s : State) (u : Nat) : State × Except Nat Nat := (fetchAt s u).fetchWord (fetchAt s u).cur (fetchAt s u).st.pc.toNat (fetchFrom s u).2
def fetchAll (s : State) (u n : Nat) : State × Except (Nat × Nat) (List Nat) :=
  (firstWord s u).1.fetchWords (firstWord s u).1.cur (firstWord s u).1.st.pc.toNat (fetchFrom s u).2 n

/-- A header and a fetch, from their parts as they are computed. -/
theorem fetchesHead_of (s : State) (u w : Nat) (h1 : (s.takeCore (s.coreOf (teamOf s.cur)) s.cur).issueAt (s.coreOf (teamOf s.cur)) s.cur = some u)
    (h2 : okW (firstWord s u) (fun a => decide (a = w)) = true) (h3 : w ≠ paddingWord) :
    FetchesHead s u (fetchFrom s u).2 w (firstWord s u).1 :=
  ⟨(fetchFrom s u).1, h1, rfl, okW_eq h2, h3⟩

theorem fetches_of (s : State) (u w : Nat) (ws : List Nat)
    (h1 : (s.takeCore (s.coreOf (teamOf s.cur)) s.cur).issueAt (s.coreOf (teamOf s.cur)) s.cur = some u)
    (h2 : okW (firstWord s u) (fun a => decide (a = w)) = true) (h3 : w ≠ paddingWord) (h4 : (firstWord s u).1.st.rep ≤ (getHeader w).rep)
    (h5 : (getHeader w).kind = 0) (h6 : okW (fetchAll s u (1 + (getHeader w).body)) (fun a => decide (a = ws)) = true) :
    Fetches s u ws (fetchAll s u (1 + (getHeader w).body)).1 :=
  ⟨(firstWord s u).1, (fetchFrom s u).2, w, fetchesHead_of s u w h1 h2 h3, h5, h4, okW_eq h6⟩

/-- The machine as a bundle that begins a group issues, and its slots. -/
def begun (s : State) : State := s.setSt (fun st => { st with grpPos := 0, grpStart := st.pc, grpChecked := true })
def issuedSlots (s : State) (b : Bundle) : List IssueSlot := (begun s).issueSlots b s.st.rep

theorem mayIssue_of (s : State) (core u : Nat) (b : Bundle) (dep : Option Nat) (h1 : s.st.grpPos = 0) (h2 : s.groupDependence s.cur s.st.pc.toNat b = dep)
    (h3 : s.st.readyAt (((issuedSlots s b).map (fun x => readsOf s.st x.instr ++ writesOf s.st x.instr)).flatten ++
      ((issuedSlots s b).filter (fun x => x.addrs.isSome)).map (fun x => .d (strideReg x.slot))) u = some u)
    (h4 : (begun s).refreshWait core u (issuedSlots s b) = u) (h5 : (begun s).overBudget core u b.head.energy = false) :
    MayIssue s (begun s) core u b (issuedSlots s b) dep :=
  ⟨.inr ⟨.inl h1, h2.symm, rfl⟩, rfl, h3, h4, fun _ => h5⟩

/-- The placed page with a bundle: a header that holds one slot, and its word. -/
def W.code (ws : List Nat) : State := { W with mem := Memory.writeList W.mem placeCode ((ws.map (leBytes 4)).flatten), agenda := [], clusters := [(0, { budget := 4000 })] }
/-- add a4, a4, a5 alone. -/
def addWs : List Nat := [1 * 2 ^ 24 + 2 ^ 20 + 2 ^ 19 + 2, 0x00004105]
def addB : Bundle := { head := getHeader (1 * 2 ^ 24 + 2 ^ 20 + 2 ^ 19 + 2), slots := [(1, 1, .add { g := 0, d := 4, a := 4, b := 5 })] }

def okB (x : Except BundleReject Bundle) (b : Bundle) : Bool := match x with | .ok c => c == b | .error _ => false

theorem test_add_bundle : okB (decodeBundle addWs) addB = true := by decide +kernel

/-- The strand that issues, its core taken. -/
def W.issuing (ws : List Nat) : State := { (W.code ws).switchCore 0 with cur := 0 }
/-- The header of one slot, alone in its group; the state after the words of a bundle are fetched. -/
def head1 : Nat := 1 * 2 ^ 24 + 2 ^ 20 + 2 ^ 19 + 2
def wordsRead (s : State) (w : Nat) : State := (fetchAll s 0 (1 + (getHeader w).body)).1

theorem witness_fetch : Fetches (W.issuing addWs) 0 addWs (wordsRead (W.issuing addWs) head1) :=
  fetches_of _ _ head1 _ (by decide +kernel) (by decide +kernel) (by decide +kernel) (by decide +kernel) (by decide +kernel) (by decide +kernel)

def W.fetched : State := wordsRead (W.issuing addWs) head1

theorem witness_issue : MayIssue W.fetched (begun W.fetched) 0 0 addB (issuedSlots W.fetched addB) none :=
  mayIssue_of _ _ _ _ _ (by decide +kernel) (by decide +kernel) (by decide +kernel) (by decide +kernel) (by decide +kernel)

/-- Words that are no legal bundle, a word of another kind, and a group whose second bundle reads what its first writes. -/
def badWs : List Nat := [head1, 0x20 * 2 ^ 25 + 1]
def oddWs : List Nat := [head1, 0x5F * 2 ^ 25]
def depWs : List Nat := [1 * 2 ^ 24 + 2 ^ 20 + 2, 0x00004105, head1, 0x00006105]
def depB : Bundle := { addB with head := getHeader (1 * 2 ^ 24 + 2 ^ 20 + 2) }
def W.dependent : State := wordsRead (W.issuing depWs) (1 * 2 ^ 24 + 2 ^ 20 + 2)
def trapSlots (x y : Instr) : State :=
  { W with iss := { slots := [{ slot := 0, word := 1, instr := x }, { slot := 1, word := 2, instr := y }] } }
/-- The first trap of the slots, tried each alone. -/
def trapOf (s : State) (found : Option TrapRec) (dep : Option Nat) : Option TrapRec :=
  match trialSlots Sys2Proof.Machine.exec s s.iss.slots with | .ok ends => bundleTrap found dep ends | .error _ => none

theorem witness_BundlesIssue :
    ((match decodeBundle badWs with | .error (.illegalEncoding _) => true | _ => false) = true ∧
      (match decodeBundle oddWs with | .error (.illegalOpcode _ _) => true | _ => false) = true ∧ okB (decodeBundle addWs) addB = true) ∧
    ((getHeader (2 ^ 28)).kind ≠ 0 ∧ (getHeader head1).kind = 0 ∧ (getHeader head1).rep < 3) := by decide +kernel

theorem witness_BundleTraps :
    ((trapSlots (.tret nOp) (.add gOp)).iss.trap = none ∧ (trapSlots (.tret nOp) (.add gOp)).iss.blocked = false ∧
      2 ≤ (trapSlots (.tret nOp) (.add gOp)).iss.slots.length ∧ ((trapOf (trapSlots (.tret nOp) (.add gOp)) none none).map (·.code)) = some 0x02 ∧
      W.tm.handler ≠ 0 ∧ W.st.tmode = false) ∧
    ((trapOf (trapSlots (.add gOp) (.add gOp)) none (some 65544)).map (·.tinfo) = some 65544) ∧
    ((trapOf (trapSlots (.add gOp) (.add gOp)) (some { prio := 20, code := 0x02, tinfo := 607 }) none).map (·.tinfo) = some 607 ∧
      (trapOf (trapSlots (.add gOp) (.add gOp)) (some { prio := 20, code := 0x02, tinfo := 607 }) (some 65544)).map (·.code) = some 0x02) := by
  decide +kernel

theorem witness_fetch_bad : Fetches (W.issuing badWs) 0 badWs (wordsRead (W.issuing badWs) head1) :=
  fetches_of _ _ head1 _ (by decide +kernel) (by decide +kernel) (by decide +kernel) (by decide +kernel) (by decide +kernel) (by decide +kernel)

theorem witness_fetch_odd : Fetches (W.issuing oddWs) 0 oddWs (wordsRead (W.issuing oddWs) head1) :=
  fetches_of _ _ head1 _ (by decide +kernel) (by decide +kernel) (by decide +kernel) (by decide +kernel) (by decide +kernel) (by decide +kernel)

/-- A word of another kind, and a resume point beyond the repetitions of its bundle. -/
theorem witness_head_kind : FetchesHead (W.issuing [2 ^ 28]) 0 (fetchFrom (W.issuing [2 ^ 28]) 0).2 (2 ^ 28) (firstWord (W.issuing [2 ^ 28]) 0).1 :=
  fetchesHead_of _ _ _ (by decide +kernel) (by decide +kernel) (by decide +kernel)

def W.beyond : State := (W.issuing addWs).setSt (fun st => { st with rep := 3 })

theorem witness_head_beyond : FetchesHead W.beyond 0 (fetchFrom W.beyond 0).2 head1 (firstWord W.beyond 0).1 ∧ (firstWord W.beyond 0).1.st.rep = 3 :=
  ⟨fetchesHead_of _ _ _ (by decide +kernel) (by decide +kernel) (by decide +kernel), by decide +kernel⟩

theorem witness_fetch_dep : Fetches (W.issuing depWs) 0 (depWs.take 2) W.dependent ∧
    MayIssue W.dependent (begun W.dependent) 0 0 depB (issuedSlots W.dependent depB) (some 65544) ∧ okB (decodeBundle (depWs.take 2)) depB = true :=
  ⟨fetches_of _ _ (1 * 2 ^ 24 + 2 ^ 20 + 2) _ (by decide +kernel) (by decide +kernel) (by decide +kernel) (by decide +kernel) (by decide +kernel)
    (by decide +kernel),
   mayIssue_of _ _ _ _ _ (by decide +kernel) (by decide +kernel) (by decide +kernel) (by decide +kernel) (by decide +kernel), by decide +kernel⟩

theorem witness_StepRunsDecoded :
    ((W.code addWs).agenda = [] ∧ ((W.code addWs).switchCore 0).canIssue 0 = true ∧
      (((W.code addWs).switchCore 0).core (((W.code addWs).switchCore 0).coreOf 0)).slot = some 0 ∧
      addB.slots = [(1, 1, .add { g := 0, d := 4, a := 4, b := 5 })] ∧
      issuedSlots W.fetched addB = [{ slot := 1, word := 1, instr := .add { g := 0, d := 4, a := 4, b := 5 } }]) ∧
    ({ W with agenda := [.event .mctlJclr] }.agenda = .event .mctlJclr :: [] ∧ Instr.mctlJclr ≠ .bundleRepetition ∧ slotOf .mctlJclr = none) ∧
    ((W.code addWs).boot.powered = true ∧ (W.code addWs).wake.startUnits.switchCores.nextTurn = .issue 0) ∧
    (({ W.asleep with agenda := [] } : State).boot.powered = true ∧
      ({ W.asleep with agenda := [] } : State).wake.startUnits.switchCores.nextTurn = .event (.sleepWake 0)) ∧
    ({ W with agenda := [], boot := { powered := false } } : State).boot.powered = false := by decide +kernel

theorem witness_GuardZero : slotGuard (.add { gOp with g := 5 }) = some 5 ∧ W.pS 5 = false ∧ W.anyActive 5 1 = false := by decide +kernel

theorem witness_EncodeDecode : wf (.add { g := 127, d := 63, a := 63, b := 63 }) = true ∧ slotOf (.add { g := 127, d := 63, a := 63, b := 63 }) = some 1 := by
  decide +kernel

theorem witness_DecodedIsWellFormed : 1 < 12 ∧ (∀ w ∈ [0x00004105], w < 2 ^ 32) ∧ decodesAs (1, [0x00004105], .add { g := 0, d := 4, a := 4, b := 5 }) = true := by decide +kernel

theorem witness_MemInvStep : Memory.wf W.mem = true ∧ isNext (Sys2Proof.Machine.step W) = true := by decide +kernel

/-! ### Further witnesses, for the clauses that the ones above do not reach -/

/-- R203 to R205: an enabled flag; the conversions at the ends of their list; the integer that a value rounds to at the ends of its range. -/
theorem witness_ScalarFloat_traps :
    (W.trap.pS 0 = true ∧ (fp32.result ((fp32.decode 0x7F7FFFFF).add (fp32.decode 0x7F7FFFFF))).2 &&& W.trap.rs.trapen ≠ 0 ∧
      (fp32.result ((fp32.decode 0x7F7FFFFF).fma (fp32.decode 0x7F7FFFFF) (fp32.decode 0))).2 &&& W.trap.rs.trapen ≠ 0 ∧
      fNV &&& W.trap.rs.trapen ≠ 0 ∧ (fp32.decode 0x7FA00000).isSnan = true) ∧
    (fp32.round (ofInt 5) = (0x40A00000, 0) ∧ (fp32.round (ofInt 16777217)).2 &&& W.trap.rs.trapen ≠ 0 ∧
      fp32.round (fp16.decode 0x3C00) = (0x3F800000, 0)) ∧
    ((FVal.num true 3 2).toInt (-2 ^ 31) (2 ^ 31 - 1) = (-2, fNX) ∧ 2 = 2 * (3 % 2) ∧ 3 / 2 % 2 = 1 ∧ (0 : Nat) < 2 ∧
      ((-1 : Int) * ((2 ^ 31 + 1 : Nat) : Int) < -2 ^ 31)) := by decide +kernel

/-- A pane that a failed ring pair left closed, and one that SHUT closed. -/
def W.closed (k : Shutter) : State := W.setTm (fun T => { T with shut := [(1056 + 9, k)] })

/-- R189, R233: an access outside the quota, or to a closed pane, or not aligned, or to a pane that a command holds. -/
theorem witness_ScratchpadAccesses_traps :
    ((fun a => 4194304 ≤ a ∨ W.rt.xp ≤ a / 4096) 262144 ∧ ¬ (fun a => 4194304 ≤ a ∨ W.rt.xp ≤ a / 4096) 262136 ∧
      ([128, 262144] : List Nat) = [128] ++ 262144 :: []) ∧
    ((W.closed .shut).rt.shutter (1056 + 36864 / 4096) ≠ .t ∧ (W.closed .shut).rt.awaits (1056 + 36864 / 4096) = false ∧
      ((W.closed .cmd).setTm (fun T => { T with cmds := [{ W.cmd 9 with items := [1065], ring := some (1, 8) }] })).rt.awaits 1065 = false ∧
      (W.closed (.ringFailed 1 7)).rt.shutter (1056 + 36864 / 4096) = .ringFailed 1 7 ∧ (W.closed (.ringFailed 1 7)).rt.xp = 64) ∧
    (65 % 8 ≠ 0 ∧ 66 % 4 ≠ 0 ∧ 128 % 64 = 0 ∧ W.anyActive 0 1 = true) ∧
    ((W.setTm (fun T => { T with shut := [(1065, .cmd)], cmds := [{ W.cmd 9 with items := [1065] }] })).rt.shutter 1065 ≠ .t ∧
      (W.setTm (fun T => { T with shut := [(1065, .cmd)], cmds := [{ W.cmd 9 with items := [1065] }] })).rt.awaits 1065 = true) := by
  decide +kernel

/-- Codebooks: of sixteen ones, of no finite entry, of zeros. -/
def ones : List Nat := List.replicate 16 0x3F80
def infs : List Nat := List.replicate 16 0x7F80

/-- R49 to R62: formats and values at the ends of the clauses. -/
theorem witness_CodeNumbers :
    (f8b ∈ [fp32, bf16, fp16, f8b] ∧ (0 : Nat) < 1 ∧ (fp16.round (.num false (2 ^ 17) 1)).1 = fp16.inf ∧ (fp16.round (.num true 1 1)).1 = 0xBC00) ∧
    (1 < 2 ∧ 15 < 16 ∧ 7 < 8 ∧ 31 < 32 ∧ 3 < 4 ∧ 7 < 2 ^ 3) ∧
    (480 * 1 < 481 ∧ 480 ≤ 480 * 1 ∧ 0 < 480) ∧ (2 * 127 ≤ (2 * 127 + 1) * 1 ∧ 127 < 128) ∧
    (ones.length = 16 ∧ (∃ j, j < 16 ∧ ((bf16.decode (ones.getD j 0)).finite = true)) ∧
      (∀ j, j < 16 → (bf16.decode (infs.getD j 0)).finite = false)) := by
  refine ⟨⟨by simp, by decide +kernel⟩, by decide, by decide, by decide, ?_⟩
  decide +kernel

/-- R59, R497: blocks whose scale is one, zero and the quotient; scales of each kind. -/
theorem witness_BlockScales :
    (4 ≤ 7 ∧ (List.replicate 16 0).length = 16 ∧ LargestMagnitude ((List.replicate 16 0).map bf16.decode) 0) ∧
    (LargestMagnitude [FVal.num true 3 2, .num false 1 1, .nan false] (3 / 2) ∧ LargestMagnitude ([] : List FVal) 0 ∧ (480 : Rat) ≠ 0 ∧
      ratOf (.num false 3 960) = (3 / 2 : Rat) / 480) ∧
    (bf16.decode 0x3F80 = .num false 128 128 ∧ bf16.decode 0 = .num false 0 (2 ^ 133)) ∧
    (codeValue 5 ones 0x7C = .inf false ∧ bf16.decode 0x7F80 = .inf false ∧ codeValue 6 ones 0x80 = .num true 128 1 ∧
      (codeValue 5 ones 0x7D).isNan = true) := by
  refine ⟨⟨by decide, by decide, ?_⟩, ⟨?_, ?_, by decide +kernel, by decide +kernel⟩, ?_, ?_⟩
  all_goals first | (unfold LargestMagnitude; decide +kernel) | decide +kernel

/-- R64, R66 to R69: blocks of 16, and the state of the sign generator. -/
theorem witness_Rotations :
    ((List.replicate 16 (0 : Nat)).length = 2 * 4 * 2 ∧ 6 < 16 ∧ 6 / 4 % 2 = 1 ∧ 3 / 4 % 2 = 0) ∧
    (4 ∈ [2, 3, 4] ∧ (List.replicate (4 ^ 4) true).length = 4 ^ 4) ∧ ((128 : Nat) ∈ [0, 128] ∧ (7 : Int) % 2 ^ 2 ≠ 0) ∧
    (∀ g : Word, ∃ h : Nat → Word, h 0 = (if g = 0 then 0x9E3779B97F4A7C15 else g) ∧
      ∀ i a b, a = h i ^^^ (h i <<< 13) → b = a ^^^ (a >>> 7) → h (i + 1) = b ^^^ (b <<< 17)) := by
  refine ⟨by decide +kernel, by decide +kernel, by decide, fun g =>
    ⟨fun n => Nat.rec (if g = 0 then 0x9E3779B97F4A7C15 else g)
      (fun _ x => (x ^^^ (x <<< 13)) ^^^ ((x ^^^ (x <<< 13)) >>> 7) ^^^ (((x ^^^ (x <<< 13)) ^^^ ((x ^^^ (x <<< 13)) >>> 7)) <<< 17)) n, rfl, ?_⟩⟩
  rintro i a b rfl rfl
  rfl

/-- Two illegal opcodes of which one is of a slot and the rest is legal; a sticky VCMP that writes a predicate which a present CMP writes. -/
theorem witness_BundlesIssue_illegal :
    (illegalIn false oddWs = some (1, 0x5F) ∧ ∀ n, decodeBundle oddWs ≠ .error (.illegalEncoding n)) ∧
    MayIssue (wordsRead (W.issuing oddWs) head1) (begun (wordsRead (W.issuing oddWs) head1)) 0 0 (legalPart false oddWs)
      (issuedSlots (wordsRead (W.issuing oddWs) head1) (legalPart false oddWs)) none := by
  refine ⟨⟨by decide +kernel, fun n hn => ?_⟩,
    mayIssue_of _ _ _ _ _ (by decide +kernel) (by decide +kernel) (by decide +kernel) (by decide +kernel) (by decide +kernel)⟩
  have h : (match decodeBundle oddWs with | .error (.illegalOpcode _ _) => true | _ => false) = true := by decide +kernel
  rw [hn] at h
  exact Bool.noConfusion h

def cmpHead : Nat := 2 * 2 ^ 24 + 2 ^ 20 + 2 ^ 19 + 2 ^ 14 + 2
def cmpWs : List Nat := [cmpHead, 3288334402, 389]
def cmpB : Bundle := { head := getHeader cmpHead, slots := [(1, 1, .cmp { g := 0, d := 0, a := 1, b := 2, imm := 389 })] }
def W.sticky : State := (W.issuing cmpWs).setSt (fun st => { st with
  sticky := [(3, some { instr := .vcmp { bay := 1, cc := 0, pt := 3, pf := 4, a := 1, b := 2 }, addrs := [] })] })

theorem witness_BundlesIssue_overlap : Fetches W.sticky 0 cmpWs (wordsRead W.sticky cmpHead) ∧ okB (decodeBundle cmpWs) cmpB = true ∧
    illegalIn false cmpWs = none ∧
    MayIssue (wordsRead W.sticky cmpHead) (begun (wordsRead W.sticky cmpHead)) 0 0 cmpB (issuedSlots (wordsRead W.sticky cmpHead) cmpB) none ∧
    0 ∈ overlaps [] ((issuedSlots (wordsRead W.sticky cmpHead) cmpB).map (fun x => (x.word, x.instr))) :=
  ⟨fetches_of _ _ cmpHead _ (by decide +kernel) (by decide +kernel) (by decide +kernel) (by decide +kernel) (by decide +kernel) (by decide +kernel),
   by decide +kernel, by decide +kernel,
   mayIssue_of _ _ _ _ _ (by decide +kernel) (by decide +kernel) (by decide +kernel) (by decide +kernel) (by decide +kernel), by decide +kernel⟩

/-- A machine in which nothing happens before the control period ends. -/
def W.still : State := { (W.setSt (fun st => { st with run := .blocked (.mbx 0) })) with agenda := [] }

theorem witness_StepRunsDecoded_period : W.still.boot.powered = true ∧ W.still.wake.startUnits.switchCores.nextTurn = .period ∧
    illegalIn false addWs = none := by decide +kernel

theorem witness_GuardZero_bay : ∀ l, l < 16 → W.active 5 1 l = false := by decide +kernel

/-- R228, R229: conversion descriptors without a rotation, with one, and with each scale mode; tags that agree, that differ and of BCODE 0. -/
theorem witness_NarrowAndWidenBlocks :
    (cdN (4 + 2 ^ 30) = 16 ∧ 0 < cdSpan (4 + 2 ^ 30) ∧ cdTag (4 + 2 ^ 30) % 4 = 0 ∧ cdSmode (4 + 2 ^ 30) = 0 ∧ cdFmt (4 + 2 ^ 30) ∈ [4, 5, 6, 7]) ∧
    (cdTag (4 + 16 + 2 ^ 30) % 4 ≠ 0 ∧ cdTag (4 + 16 + 2 ^ 30) % 4 = cdSpan (4 + 16 + 2 ^ 30)) ∧
    (cdSmode (4 + 2 ^ 30 + 2 ^ 32) = 1 ∧ cdSmode (4 + 2 ^ 30 + 2 ^ 33) = 2 ∧ (bf16.decode 0).isZero = true ∧ (FVal.num false 1 1).finite = true) ∧
    (cdWtag (4 + 2 ^ 30 + 2 ^ 52) = 1 ∧ cdWtag (4 + 2 ^ 30 + 2 ^ 52) % 4 = cdSpan (4 + 2 ^ 30 + 2 ^ 52) ∧ 1 % 1024 = cdWtag (4 + 2 ^ 30 + 2 ^ 52) ∧
      5 % 4 = 1 ∧ 5 % 1024 ≠ cdWtag (4 + 2 ^ 30 + 2 ^ 52)) := by decide +kernel

/-! Loops, waits, boundaries (file 05) -/

def wordIs (x : State × Except Nat Nat) (f : Nat → Bool) : Bool := match x.2 with | .ok w => f w | .error _ => false
def codeIs (x : State × Except Nat Nat) (c : Nat) : Bool := match x.2 with | .ok _ => false | .error d => d == c

theorem wordIs_iff {x : State × Except Nat Nat} {f : Nat → Bool} (h : wordIs x f = true) : ∃ s' w, x = (s', .ok w) ∧ f w = true := by
  obtain ⟨s, e⟩ := x
  cases e with
  | ok a => exact ⟨s, a, rfl, h⟩
  | error e => exact absurd h (by simp [wordIs])

/-- The last bundle of a body is padding, a bundle, a word of another kind, or lies where code cannot be read. -/
theorem witness_HardwareLoops_zero :
    wordIs ((W.code [head1, paddingWord]).fetchWord 0 65540 []) (fun w => w == paddingWord) = true ∧
    wordIs ((W.code addWs).fetchWord 0 65536 []) (fun w => w != paddingWord && (getHeader w).kind == 0) = true ∧
    wordIs ((W.code [head1, 2 ^ 28]).fetchWord 0 65540 []) (fun w => w != paddingWord && (getHeader w).kind != 0) = true ∧
    codeIs (W.fetchWord 0 0x900000 []) 0x40 = true ∧ codeIs ((W.typed (placeCode + 95 - 16)).fetchWord 0 65536 []) 0x41 = true ∧
    (∀ l ∈ W.rs.loops, l.frozen = false → l.last ≠ W.rs.pc) ∧ (∀ l ∈ W.one.rs.loops, l.frozen = false → l.last ≠ W.one.rs.pc) ∧
    (∃ l ∈ W.last.rs.loops, l.frozen = false ∧ l.last = W.last.rs.pc) := by decide +kernel

theorem witness_HardwareLoops_retire : { W.iss with jump := some 65544, branch := true }.jump = some 65544 ∧
    { W.iss with jump := some 65544 }.branch = false ∧ W.iss.jump = none := by decide +kernel

theorem witness_WaitsAndPromises_yield :
    (let s := W.pair .ready
     let c := s.coreOf (teamOf s.cur)
     c = 0 ∧ ∀ i, i < 5 → s.passes c (max (s.core c).nextIssue (s.cycle + 1) + i) = true) := by decide +kernel

/-- A request of the strand that acts on the bytes of an address, not yet out of the core. -/
def reqP (pa ty : Nat) : Pending :=
  { global := false, dest := .a 5, value := 0, done := false, due := 90, req := some (.atom { lOp with imm := 8 } false 65536 pa ty 0 1 0) }
def W.boundary : State := (W.store 65600).setSt (fun st => { st with bnd := some 70 })

theorem witness_BarriersAndPhases_points :
    (W.boundary.st.bnd ≠ none ∧ pubsOk (W.boundary.pubCells 0 (W.boundary.st.toPublish 3)) = true ∧ (W.store 65600).st.bnd = none ∧
      pubsOk ((W.store 65600).pubCells 0 ((W.store 65600).st.toPublish 2)) = true) ∧
    (1 = 1 ∧ isSupervisor (teamOf W.moving.cur) = true ∧ W.moving.homesMove = true ∧ W.moving.pS 0 = true) := by decide +kernel

theorem witness_TrapReturnAndExit_levels :
    (W.setSt (fun st => { st with tmode := true })).rs.tmode = true ∧ (W.setSt (fun st => { st with tmode := true })).rs.level = 0 ∧
    W.handler.rs.level ≠ 0 ∧ W.fltHold = [] ∧ W.fltFull = false ∧ { W with fltHold := [({ kind := 0, code := 0 } : Record)] }.fltHold ≠ [] := by decide +kernel

/-! Global memory (file 03) -/

theorem witness_Global_requests :
    ((waits W (reqP placeCode 0)).st.reqAt placeCode 8 = true ∧ (waits W (reqP placeCode 0)).st.reqAt (placeCode + 64) 8 = false ∧
      (waits W (reqP placeCode 0)).st.reqOpen = true ∧ W.st.reqOpen = false ∧ W.st.reqAt placeCode 8 = false) ∧
    (okAt (W.globalCheck 65536 8 .write) (fun (pa, ty, _) => decide (pa = placeCode ∧ ty < 2)) = true ∧
      (W.globalCheck 65536 8 .write).1.st.reqAt placeCode 8 = false ∧
      ((waits W (reqP placeCode 0)).globalCheck 65536 8 .read).1.st.reqAt placeCode 8 = true ∧
      okAt ((waits W (reqP placeCode 0)).globalCheck 65536 8 .read) (fun (pa, _, _) => decide (pa = placeCode)) = true ∧
      ((waits (W.typed (placeCode + 95)) (reqP 0 0)).globalCheck 65536 8 .write).1.st.reqOpen = true ∧
      ((W.typed (placeCode + 95)).globalCheck 65536 8 .write).1.st.reqOpen = false) ∧
    ((∃ j, j < 8 ∧ W.st.ownByte (65536 + j) = none) ∧ placeCode % 64 = 65536 % 64) := by decide +kernel

/-- Accesses of an atomic: the pages it may not use; its waits; what it publishes first. -/
def isProtU (s : State) (va : Nat) : Bool := isProt (s.strandAccess s.cur va .update)
theorem witness_Atomics_checks :
    (isPage (W.strandAccess 0 0x900000 .update) = true ∧ isProtU (W.typed (placeCode + 95 - 4)) 65536 = true ∧
      isProtU (W.typed (placeCode + 95 - 8)) 65536 = true) ∧
    (okAt (W.globalCheck 65536 8 .update) (fun (pa, ty, _) => decide (targetOf pa = .dram ∧ ty < 2)) = true ∧
      okAt ((W.typed (placeCode + 95)).globalCheck 65536 8 .update) (fun (pa, ty, _) => decide (targetOf pa = .dram ∧ 2 ≤ ty)) = true ∧
      okAt ((W.sup (0xFFFFFC0000000 + 95)).globalCheck 65536 8 .update) (fun (pa, _, _) => isCtrl (targetOf pa)) = true ∧
      okAt ((W.typed (2 ^ 51 + 95)).globalCheck 65536 8 .update) (fun (pa, _, _) => isPcie (targetOf pa)) = true) ∧
    (let s' := (W.globalCheck 65536 8 .update).1
     s'.st.acqOpen = false ∧ s'.st.reqOpen = false ∧ s'.st.pcieOpen = false ∧ s'.homesMove = false ∧
       ∀ p ∈ s'.st.stores, ∀ w, p.2 = some w → w.scope ≠ none) ∧
    (let s' := ((W.typed (2 ^ 51 + 95)).globalCheck 65536 8 .update).1
     s'.st.acqOpen = false ∧ s'.st.reqOpen = false ∧ s'.st.pcieOpen = false ∧ s'.homesMove = false) ∧
    (((waits W openP).globalCheck 65536 8 .update).1.st.pcieOpen = true ∧ ((waits W (reqP 0 0)).globalCheck 65536 8 .update).1.st.reqOpen = true ∧
      (W.moving.globalCheck 65536 8 .update).1.homesMove = true ∧ okAt (W.moving.globalCheck 65536 8 .update) (fun (pa, ty, _) => decide (targetOf pa = .dram ∧ ty < 2)) = true) ∧
    (let u := W.store 65600
     okAt (u.globalCheck 65536 8 .update) (fun (pa, _, _) => decide (targetOf pa = .dram)) = true ∧
       pubsOk ((u.globalCheck 65536 8 .update).1.pubCells 0 ((u.globalCheck 65536 8 .update).1.st.toPublish 2)) = true) ∧
    (let u := W.store 0x900000
     okAt (u.globalCheck 65536 8 .update) (fun (pa, _, _) => decide (targetOf pa = .dram)) = true ∧
       pubsOk ((u.globalCheck 65536 8 .update).1.pubCells 0 ((u.globalCheck 65536 8 .update).1.st.toPublish 2)) = false) ∧
    ((0x880 : Nat).testBit 7 = true ∧ (0x840 : Nat).testBit 6 = true ∧ WellFormed (.atom { lOp with imm := 0x8A8 })) := by
  decide +kernel

/-- A request leaves the core: with its publication, with one that fails, and an atomic on the placed page. -/
def jreq (va : Nat) : Pending :=
  { global := false, dest := .none, value := 0, done := false, due := 90, req := some (.jdone 65600 (placeCode + 64) 0)
    stores := [(va, { val := 1, start := va, scope := none, fresh := true })] }
def W.request (va : Nat) : State := (W.store va).setSt (fun st => { st with pend := [jreq va] })
def pubFails (x : State × Option (Nat × Nat)) : Bool := x.2.isSome

theorem witness_ResultsArrive_requests :
    ((W.pending { loadP with global := false }).nextService 0 = some { loadP with global := false } ∧
      { loadP with global := false }.req = none ∧ loadP.code = 0x46) ∧
    ((W.request 0x900000).nextService 0 = some (jreq 0x900000) ∧ (jreq 0x900000).req.isSome = true ∧
      pubFails (({ W.request 0x900000 with cycle := 90, cur := 0, iss := {} } : State).publishStores 0 2 (jreq 0x900000).stores) = true ∧
      ((W.request 0x900000).strand 0).run = .ready) ∧
    ((W.pending (reqP placeCode 0)).nextService 0 = some (reqP placeCode 0) ∧ (reqP placeCode 0).stores = [] ∧ targetOf placeCode = .dram ∧
      ((W.pending (reqP placeCode 0)).strand 0).stores = [] ∧ (8 : Nat).testBit 3 = true) := by decide +kernel

/-! Engines (file 07) -/

theorem witness_TileOperations :
    (mopOf (.mtrn mtOp)).op = .mtrn mtOp ∧ mtOp.col < 64 ∧ mtOp.mode = 0 ∧ { mtOp with mode := 2 }.mode ≠ 0 ∧ { mtOp with int := 1 }.int = 1 ∧
    (((W.team (teamOf 0)).seenBy (mopOf (.mtrn mtOp))).tileAt 30)[64 * 63 + 63]? = some 0 ∧
    ((BitVec.ofNat 32 0x80000000).toInt + (BitVec.ofNat 32 0xFFFFFFFF).toInt < -2147483648) := by decide +kernel

/-- A command of the placed team, due, with the panes it names; and its run. -/
def mkCmd (i : Instr) (src dst n : Nat) (aux aux2 : Word) (items : List Nat) : Cmd :=
  { id := 1, strand := 0, op := i, src := src, dst := dst, n := n, aux := aux, aux2 := aux2, items := items, asid := 1 }
def run (c : Cmd) : EngRun := runOf (W.setTm (fun T => { T with cmds := [c] })) 0 c none
def deAt (ssp dsp np mod : Nat) : OpDE := { deOp with ssp := ssp, dsp := dsp, np := np, mod := mod, aux := 0, aux2 := 0 }
/-- Launch 1 is named by handle 1 and its team 0 by core-in-launch 0. -/
def byHand (buf pane n : Nat) (U : Team → Team) : State × Cmd :=
  let c := { mkCmd (.dcopy (deAt 2 2 (n - 1) 0)) 0 0 n 0 0 [1056] with handle := some (1, 0, buf, pane) }
  (W.setTm (fun T => U { T with cmds := [c] }), c)
def isUnit (x : EngRun × Option (Nat × Nat × Nat)) : Bool := match x.2 with | some (pa, ty, _) => decide (targetOf pa = .dram ∧ ty < 2) | none => false

theorem witness_EngineCommandsIssue_handle : 2 = 2 ∧ 1536 ≤ 1536 + 3 ∧ (W.aR ((1536 + 3) % 64)).toNat = 65536 := by decide +kernel

theorem witness_ShutAndOpen_absent :
    (W.setTm (fun T => { T with toFill := [1065] })).rt.absent (paneItem 2 (32768 / 4096 + 1)) = true ∧
    (∀ k, k < 1 → (W.setTm (fun T => { T with toFill := [1065] })).rt.absent (paneItem 2 (32768 / 4096 + k)) = false) ∧
    allOk ((W.setTm (fun T => { T with toFill := [1065] })).paneArgCheck 2 32768 2) = true ∧
    (∀ j, j < 2 → W.rt.absent (paneItem 2 (32768 / 4096 + j)) = false) := by decide +kernel

theorem witness_CommandsEnd :
    ((W.filling.team 0).cmds.find? (fun d => d.id == (W.cmd 9).id) = some (W.cmd 9) ∧ (W.cmd 9).isRing = false ∧ W.filling.engineReady 0 (W.cmd 9) = true) ∧
    ((byHand 2 9 2 id).2.op = .dcopy (deAt 2 2 1 0) ∧ (run (mkCmd (.dcopy (deAt 2 2 1 0)) 0 0 2 0 0 [])).err = none) ∧
    (let x := byHand 2 9 2 (fun T => { T with shut := [(1065, .shut), (1066, .shut)] })
     let r := runOf x.1 0 x.2 none
     r.s.handleTeam 1 0 = some 0 ∧ (r.s.team 0).status = .bound ∧ 9 + 2 ≤ (r.s.team 0).panes 2 ∧
       ∀ k, k < 2 → (r.s.team 0).shutter (paneItem 2 (9 + k)) = .shut) ∧
    (let x := byHand 2 9 1 (fun T => { T with status := .loading, since := 5, toSpill := [1065], shut := [(1065, .shut)] })
     let r := runOf x.1 0 x.2 none
     (r.s.team 0).status = .loading ∧ x.2.start ≤ (r.s.team 0).since ∧ (∀ k, k < 1 → paneItem 2 (9 + k) ∈ (r.s.team 0).toSpill) ∧
       ∀ k, k < 1 → (r.s.team 0).shutter (paneItem 2 (9 + k)) = .shut) ∧
    (let x := byHand 2 9 1 id
     let r := runOf x.1 0 x.2 none
     r.s.handleTeam 7 0 = none ∧ r.s.handleTeam 1 0 = some 0 ∧ (r.s.team 0).shutter (paneItem 2 (9 + 0)) ≠ .shut ∧ (r.s.team 0).panes 2 < 64 + 1) := by
  decide +kernel

theorem witness_EngineAccesses :
    (let r := run (mkCmd (.dcopy (deAt 0 0 0 0)) 65536 65536 1 0 0 [])
     r.err = none ∧ 65536 % 65536 + 256 ≤ 65536 ∧ (List.replicate 256 (0 : Byte)).length = 256 ∧
       isUnit (r.translate 4 65536 .read) = true ∧ isUnit (r.translate 4 65536 .write) = true ∧ r.bad = none ∧
       (r.translate 4 65536 .read).1.s.log = [] ∧
       isPage (r.s.access r.T.launch r.asid 0 0x900000 .read) = true ∧ isPage (r.s.access r.T.launch r.asid 0 0x900000 .write) = true) ∧
    (let r := runOf (W.typed (placeCode + 95 - 4)) 0 (mkCmd (.dcopy (deAt 0 0 0 0)) 65536 65536 1 0 0 []) (some 65540)
     r.bad = some 65540 ∧ 65536 ≤ 65540 ∧ 65540 < 65536 + 256 ∧ isProt (r.s.access r.T.launch r.asid 0 65536 .read) = true) ∧
    isProt ((runOf (W.typed (placeCode + 95 - 8)) 0 (mkCmd (.dcopy (deAt 0 0 0 0)) 65536 65536 1 0 0 []) none).s.access 1 1 0 65536 .write) = true := by
  decide +kernel

/-- DTBL from X pane 0 to pane 4 in BF16 by a table in slot 0, elements `e0` to `e0 + n - 1`. -/
def tblRun (t : Option Table) (fmt n e0 : Nat) : EngRun × Cmd :=
  let c := mkCmd (.dtbl { deAt 2 2 0 0 with aux2 := 0 }) 0 (4 * 4096) 1 (BitVec.ofNat 64 (n + 2 ^ 32 * e0)) 0 [1056, 1060]
  (runOf (W.setTm (fun T => { T with cmds := [c], desc := [(1056, fmt)], tbl := [(0, t)] })) 0 c none, c)
/-- A table at 65536, with a good header or with a bad one. -/
def ldRun (hd : List Nat) : EngRun × Cmd :=
  let c := mkCmd (.dtblld { g := 0, ra := 3, rb := 0, rc := 0, rd := 7, pt := 0, sub := 1 }) 65536 0 1 0 0 []
  (runOf ((W.data 0 hd).setTm (fun T => { T with cmds := [c] })) 0 c none, c)
def ldRead (hd : List Nat) : EngRun × List Byte :=
  EngRun.readAt { (ldRun hd).1 with T := { (ldRun hd).1.T with tbl := NMap.set none (ldRun hd).1.T.tbl 1 none } } 65536 32
def ldField (hd : List Nat) (k n : Nat) : Nat := littleEndian (fun i => (ldRead hd).2.getD (k + i) 0) n

theorem witness_Tables :
    ((tblRun none 2 1 0).1.err = none ∧ NMap.get none (tblRun none 2 1 0).1.T.tbl 0 = none ∧
      NMap.get none (tblRun (some lineT) 2 1 0).1.T.tbl 0 = some lineT ∧ dFmt (NMap.get 0 (tblRun (some lineT) 2 1 0).1.T.desc 1056) = 2 ∧
      dTag (NMap.get 0 (tblRun (some lineT) 2 1 0).1.T.desc 1056) = 0 ∧ dFmt (NMap.get 0 (tblRun (some lineT) 4 1 0).1.T.desc 1056) ≠ 2 ∧
      ({ deAt 2 2 0 0 with aux2 := 0 } : OpDE).aux2 / 4 % 2 = 0 ∧ 4 / 4 % 2 = 1) ∧
    ((tblRun (some lineT) 2 0 0).2.aux.toNat % 2 ^ 32 = 0 ∧ (0 + 1) * (4096 / 2) < 1 + 2048 ∧ 0 + 2048 ≤ (0 + 1) * (4096 / 2) ∧
      (tblRun (some lineT) 2 1 2047).2.aux.toNat / 2 ^ 32 + 1 ≤ (0 + 1) * 2048) ∧
    ((ldRead [0x3F800000, 0, 0, 0]).1.err = none ∧ (ldRead [0x3F800000, 0, 0, 0]).2.length = 32 ∧
      ¬ (256 ≤ ldField [0x3F800000, 0, 0, 0] 6 2 ∨ ldField [0x3F800000, 0, 0, 0] 5 1 % 4 = 3 ∨ ldField [0x3F800000, 0, 0, 0] 5 1 / 4 % 4 = 3 ∨
        (BitVec.ofNat 8 (ldField [0x3F800000, 0, 0, 0] 4 1)).toInt < -32 ∨ 32 < (BitVec.ofNat 8 (ldField [0x3F800000, 0, 0, 0] 4 1)).toInt ∨
        (fp32.decode (ldField [0x3F800000, 0, 0, 0] 0 4)).finite = false ∨ 16 ≤ ldField [0x3F800000, 0, 0, 0] 5 1 ∨
        ldField [0x3F800000, 0, 0, 0] 16 16 ≠ 0) ∧
      256 ≤ ldField [0x0100000000000000, 0, 0, 0] 6 2 ∧
      ((ldRead [0x3F800000, 0, 0, 0]).1.readAt (65536 + 32) 8).1.err = none ∧ ((ldRead [0x3F800000, 0, 0, 0]).1.readAt (65536 + 32) 8).2.length = 8 ∧
      ((ldRun [0]).1.readAt 0x900000 32).1.err.isSome = true) ∧
    ((FVal.num false 3 2).isNan = false ∧ (fp32.decode lineT.x0).finite = true ∧ 0 < lineT.segs.length ∧ lineT.himode = 1 ∧
      ((FVal.inf false).sub (fp32.decode lineT.x0)).1.scale2 lineT.sh = .inf false ∧ ((FVal.inf true).sub (fp32.decode lineT.x0)).1.scale2 lineT.sh = .inf true) ∧
    (((FVal.num false 1 1).sub (fp32.decode lineT.x0)).1.scale2 lineT.sh =
        .num false (2 ^ 149) (2 ^ 149) ∧ 2 ^ 149 / 2 ^ 149 < lineT.segs.length) := by decide +kernel

/-- A copy from X panes 0 and 1 to W pane 2 on, with a descriptor or as it is. -/
def copyRun (np mod a d : Nat) : EngRun × Cmd :=
  let c := mkCmd (.dcopy (deAt 2 1 np mod)) 0 (2 * 4096) (np + 1) (BitVec.ofNat 64 d) 0 []
  (runOf (W.setTm (fun T => { T with cmds := [c], desc := [(1056, a), (1057, a)] })) 0 c none, c)
def sources (x : EngRun × Cmd) (o : OpDE) : Option (List Nat) := (x.1.s.dcopySource x.1.team o x.2).map (·.2)

theorem witness_PaneCopies :
    (sources (copyRun 1 0 2 2) (deAt 2 1 1 0) = some [1056, 1057] ∧ [1056, 1057].length = 1 + 1 ∧ (2 * 4096) / 4096 + 1 < 1024 ∧
      (copyRun 1 0 2 2).1.err = none) ∧
    (legalDesc 2 = true ∧ legalDesc 4 = true ∧ convertible 2 4 = true ∧ convertible 0 4 = false ∧ legalDesc 0 = true ∧
      ∀ i ∈ [1056, 1057], NMap.get 0 (copyRun 1 1 2 4).1.T.desc i = 2) ∧
    (max (max (scaleLen (dSgeo 2)) (tagBlock (dTag 2))) (max (scaleLen (dSgeo 4)) (tagBlock (dTag 4))) ≤ 1 ∧
      scaleLen (dSgeo (mkDesc 4 2 0 0)) ≠ 0 ∧ legalDesc (mkDesc 4 2 0 0) = true) := by decide +kernel

def gRun (i : Instr) (src dst : Nat) (aux aux2 : Word) : EngRun := run (mkCmd i src dst 1 aux aux2 [])
/-- A geometry of two rows of eight bytes, 64 bytes apart. -/
def geo2 : Word := BitVec.ofNat 64 (8 + 2 * 2 ^ 16 + 64 * 2 ^ 32)
/-- The stretch is there, with the descriptor of raw bytes. -/
def rawStretch (l : List Stretch) : Bool := match l with | [t] => t.there && t.desc == 0 | _ => false

theorem witness_GlobalCopies :
    ((gRun (.dcopy (deAt 0 0 0 0)) 65536 65536 0 0).err = none ∧
      sources ((gRun (.dcopy (deAt 0 0 0 0)) 65536 65536 0 0), mkCmd (.dcopy (deAt 0 0 0 0)) 65536 65536 1 0 0 []) (deAt 0 0 0 0) = some (deItems 0 65536 1)) ∧
    (12 % 4 = 0 ∧ 8 % 4 = 0 ∧ (List.replicate 8 (0 : Byte)).length = 8 ∧ 16376 + 8 ≤ 16384) ∧
    ((gRun (.dcopy (deAt 0 2 0 0)) 65536 0 0 0).err = none ∧ 0 / 4096 < 1024 ∧ attrDesc ((((gRun (.dcopy (deAt 0 2 0 0)) 65536 0 0 0).s.pageAttr 1 65536).map (·.1)).getD 0) = 0 ∧
      rawStretch ((gRun (.dcopy (deAt 0 2 0 0)) 65536 0 0 0).s.globalRun 1 65536 0 (paneElems 0) 40) = true ∧ legalDesc 0 = true ∧
      (EngRun.perform (gRun (.dcopy (deAt 0 2 0 0)) 65536 0 0 0) (mkCmd (.dcopy (deAt 0 2 0 0)) 65536 0 1 0 0 [])).err = none) ∧
    (geo2.toNat % 65536 = 8 ∧ geo2.toNat / 65536 % 65536 = 2 ∧
      (EngRun.perform (gRun (.dcopy2 (deAt 0 2 0 0)) 65536 0 geo2 0) (mkCmd (.dcopy2 (deAt 0 2 0 0)) 65536 0 1 geo2 0 [])).err = none ∧
      (gRun (.dcopy2 (deAt 0 2 0 0)) 65536 0 geo2 0).s.badRow 1 65536 8 (fun a b v m => dSgeo a != 0 || !rowOnBlocks a b v m (tagBlock (dTag a))) = false ∧
      (∀ j, j < 2 → (gRun (.dcopy2 (deAt 2 0 0 0)) 0 65536 geo2 0).s.badRow 1 (65536 + 64 * j) 8
        (fun a b v m => dSgeo a != 0 || !rowOnBlocks a b v m (tagBlock (dTag a))) = false)) ∧
    ((EngRun.perform (gRun (.dgath (deAt 0 2 0 0)) 65536 0 65664 geo2) (mkCmd (.dgath (deAt 0 2 0 0)) 65536 0 1 65664 geo2 [])).err = none) := by
  decide +kernel

/-- A page whose attributes give a scale geometry, on which DCOPY2 does not move a row. -/
def W.scaledPage : State := { W with mem := Memory.writeList W.mem (placeTables + 49152 + 8192 + 8) (leBytes 8 (mkDesc 4 2 0 0)) }
/-- A block of the cache with two valid sectors, of which one is dirty. -/
def cacheB : Block := { slice := 0, set := 0, asid := 1, vblock := 16, pblock := 32, valid := 3, dirty := 1, cls := 0 }

theorem witness_MarksAndFlushes :
    (({ deAt 0 2 0 0 with aux2 := 1 } : OpDE).aux2 = 1 ∧ (gRun (.openp (deAt 0 2 0 0)) 0 0 0 0).err = none) ∧
    ((runOf W.scaledPage 0 (mkCmd (.dcopy2 (deAt 0 2 0 0)) 65536 0 1 geo2 0 []) none).s.badRow 1 65536 8
        (fun a b v m => dSgeo a != 0 || !rowOnBlocks a b v m (tagBlock (dTag a))) = true) ∧
    (gRun (.dflush { g := 0, ra := 3, rb := 2, rc := 0, rd := 0, pt := 0, sub := 0 }) 65536 0 4096 0).err = none ∧
    (bit cacheB.valid 1 = true ∧ 65536 < cacheB.vblock * 4096 + 256 * 1 + 256 ∧ cacheB.vblock * 4096 + 256 * 1 < 65536 + 4096) ∧
    ((match W.walk 1 0x900000 with | .page => true | _ => false) = true ∧ (match W.walk 1 65536 with | .leaf .. => true | _ => false) = true ∧ 0x900000 < 2 ^ 56) := by
  decide +kernel

/-! Queues, tasks, requests (files 07 and 11) -/

/-- The machine as a request that stands at the head of strand 0 leaves the core. -/
def leaves (s : State) (p : Pending) : State :=
  ({ s with cycle := max s.cycle p.due, cur := 0, iss := {} } : State).setSt (fun st => { st with pend := st.pend.erase p })
theorem presents_of {s : State} {p : Pending} (h : s.nextService 0 = some p) (h' : p.stores = []) : Presents s (leaves s p) 0 p := ⟨h, h', rfl⟩

def reqOf (r : Request) : Pending := { global := false, dest := .a 5, value := 0, done := false, due := 90, req := some r }

theorem witness_Queues_waits :
    (let s := (W.runtime [qEntry]).setSt (fun st => { st with pend := [reqP placeCode 0] })
     (s.globalCheck 65536 64 .read).1.st.reqAt placeCode 64 = true ∧ (s.globalCheck 65536 64 .write).1.st.reqAt placeCode 64 = true ∧
       (s.globalCheck 65536 64 .read).1.homesMove = false ∧ (s.globalCheck 65536 64 .read).1.st.window = []) ∧
    (let s := (W.runtime [qEntry]).setSt (fun st => { st with pend := [acqP] })
     (s.globalCheck 65536 64 .read).1.st.acqOpen = true) ∧
    ((W.runtime [qEntry]).globalCheck 65536 64 .read).1.st.acqOpen = false ∧ ((W.runtime [qEntry]).globalCheck 65536 64 .read).1.st.reqAt placeCode 64 = false ∧
    ((W.runtime [qEntry]).globalCheck 65536 64 .write).1.st.reqAt placeCode 64 = false ∧ placeCode % 64 = 0 := by decide +kernel

theorem witness_JobControl_requests :
    (jcbAt ((waits (W.jcb 2 1) (reqP 0 0)).jcbAccess 65600) (fun s _ => s.st.reqOpen && !s.homesMove) = true ∧
      jcbAt ((W.jcb 2 1).jcbAccess 65600) (fun s _ => !s.st.reqOpen && pubsOk (s.pubCells s.cur (s.st.toPublish 2))) = true) ∧
    jcbAt ((W.store 0x900000).jcbAccess 65600) (fun s _ => !pubsOk (s.pubCells s.cur (s.st.toPublish 2))) = true ∧
    jcbAt (W.jcbAccess 0x900000) (fun _ _ => true) = false := by decide +kernel

def doneP : Pending := reqOf (.jdone 65600 (placeCode + 64) 5)

theorem witness_CompletionCounts : Presents (waits (W.jcb 2 1) doneP) (leaves (waits (W.jcb 2 1) doneP) doneP) 0 doneP ∧
    ((waits (W.jcb 2 1) doneP).strand 0).stores = [] ∧ 5 < 128 ∧ ((W.jcb 2 1).readJcb (placeCode + 64)).expect = 2 :=
  ⟨presents_of (by decide +kernel) rfl, by decide +kernel⟩

/-- A task descriptor whose job control block is misaligned. -/
def W.badJcb : State := (W.data 64 ([65792, 65857, 575] ++ List.replicate 17 0)).setSt (fun st => { st with a := [(1, 65600), (2, 65856), (3, 575)] })

theorem witness_TasksAndLaunches_requests :
    (pubsOk ((W.store 0x900000).pubCells 0 ((W.store 0x900000).st.toPublish 2)) = false ∧ isNoneO ((W.task 575).publication 0 2) = true) ∧
    (let u := ((W.badJcb).publication 0 2).1
     isNoneO (W.badJcb.publication 0 2) = true ∧ ((u.plinthRead u.tm.asid 65600 160).map (fun bs => dwordOf bs 1 % 2 ^ 56 % 64)) = some 1) ∧
    (let u := ((W.task 575).publication 0 2).1
     (u.plinthRead u.tm.asid 65600 160).map (fun bs => dwordOf bs 1 % 2 ^ 56 % 64) = some 0) := by decide +kernel

def tsubP (va : Nat) : Pending := reqOf (.tsub va)
def launchP (q : Nat) : Pending := reqOf (.launch 65792 65856 (q + 2 ^ 32))
/-- The machine as the descriptor's request leaves, and after its header's page is touched. -/
def submits (queue va : Nat) : State := leaves (waits (W.task queue) (tsubP va)) (tsubP va)
def touched (queue va : Nat) : State := (submits queue va).plinthTouch (submits queue va).tm.asid va 160

theorem witness_TasksEnter :
    Presents (waits (W.task 575) (tsubP 65600)) (submits 575 65600) 0 (tsubP 65600) ∧
    Presents (waits (W.task 576) (tsubP 65600)) (submits 576 65600) 0 (tsubP 65600) ∧
    Presents (waits (W.task 575) (launchP 575)) (leaves (waits (W.task 575) (launchP 575)) (launchP 575)) 0 (launchP 575) ∧
    (let w := (touched 575 65600).plinthTouch 1 65792 64
     w.taskRefusal (descOf w) = none ∧ w.freeTask = some 0 ∧ (touched 575 65600).tm.asid = 1 ∧
       ((touched 575 65600).plinthRead 1 65600 160).map (fun bs => dwordOf bs 0 % 2 ^ 56) = some 65792) ∧
    (let w := (touched 576 65600).plinthTouch 1 65792 64
     w.taskRefusal (descOf w) = some 1) ∧
    ((touched 575 0x900000).plinthRead 1 0x900000 160 = none) ∧
    ((575 + 2 ^ 32) % 1024 = 575 ∧ (leaves (waits (W.task 575) (launchP 575)) (launchP 575)).foreignQueue 575 = false ∧ 575 < (576 + 2 ^ 32) % 1024 ∧
      ({ leaves (waits (W.task 3) (launchP 3)) (launchP 3) with streams := [(3, { live := true, asid := 2 })] } : State).foreignQueue 3 = true) :=
  ⟨presents_of (by decide +kernel) rfl, presents_of (by decide +kernel) rfl, presents_of (by decide +kernel) rfl, by decide +kernel, by decide +kernel,
    by decide +kernel, by decide +kernel⟩

/-! Prefixes, pages, privilege, streams (files 11, 14) -/

def insP (n : Nat) : Pending := reqOf (.pfxins 65600 65536 n)
def inserts (s : State) (n : Nat) : State := leaves (waits s (insP n)) (insP n)
/-- An index whose bucket 0 is full, and in which no entry is mapped. -/
def W.idleFull : State := { W.crowded with mapCount := [(placeCode, 1)] }
def keyed (s : State) : State := s.plinthTouch s.tm.asid 65600 32
def bucketFull (s : State) : Bool := (List.range 16).all (fun i => (s.bucket (keyBucket 0)).any (fun q => q.1 == 16 * keyBucket 0 + i))

theorem witness_InsertionsEnter :
    (Presents (waits W (insP 1)) (inserts W 1) 0 (insP 1) ∧ Presents (waits W (insP 0)) (inserts W 0) 0 (insP 0) ∧
      Presents (waits W.crowded (insP 1)) (inserts W.crowded 1) 0 (insP 1)) ∧
    (((inserts W 1).mappedPages 1 65536 1).isSome = true ∧ (inserts W 1).tm.asid = 1 ∧ (inserts W 1).mappedPages 1 131072 1 = none ∧ 65537 % 65536 ≠ 0 ∧
      (keyed (inserts W 1)).readKey 65600 = some 0 ∧ ((inserts W 1).plinthTouch 1 0x900000 32).readKey 0x900000 = none) ∧
    ((keyed (inserts W 1)).findPrefix 1 0 = none ∧
      (List.range 16).find? (fun i => ((keyed (inserts W 1)).bucket (keyBucket 0)).all (fun q => q.1 != 16 * keyBucket 0 + i)) = some 0) ∧
    ((keyed (inserts (W.known 65536 1) 1)).findPrefix 1 0 = some (3, pfx0)) ∧
    (bucketFull (keyed (inserts W.crowded 1)) = true ∧ (keyed (inserts W.crowded 1)).findPrefix 1 0 = none ∧
      ∀ q ∈ (keyed (inserts W.crowded 1)).bucket (keyBucket 0), (keyed (inserts W.crowded 1)).idle q.2 = false) ∧
    (bucketFull (keyed (inserts W.idleFull 1)) = true ∧ (keyed (inserts W.idleFull 1)).findPrefix 1 0 = none ∧
      ∃ q ∈ (keyed (inserts W.idleFull 1)).bucket (keyBucket 0), (keyed (inserts W.idleFull 1)).idle q.2 = true) :=
  ⟨⟨presents_of (by decide +kernel) rfl, presents_of (by decide +kernel) rfl, presents_of (by decide +kernel) rfl⟩,
    by decide +kernel, by decide +kernel, by decide +kernel, by decide +kernel, by decide +kernel⟩

/-- A load through a PCIe window from the placed page is outstanding; a boundary has begun. -/
def W.reads (va : Nat) : State := (W.range 65536 65536 0).setSt (fun st => { st with pend := [{ openP with va := va }] })
def W.trims : State := (W.range 65536 65536 0).setSt (fun st => { st with bnd := some 70 })

theorem witness_PrefixesAndPages_waits :
    ((W.known 131072 1).plinthTouch 1 65600 32).readKey 65600 = some 0 ∧
    ((W.known 131072 1).plinthTouch 1 65600 32).findPrefix 1 0 = some (3, pfx0) ∧
    ((W.range 0x900000 0 0).plinthTouch 1 0x900000 32).readKey 0x900000 = none ∧
    pubsOk ((W.store 0x900000).pubCells 0 ((W.store 0x900000).st.toPublish 2)) = false ∧
    (∃ k ∈ (W.reads 65544).strands, ((W.reads 65544).team (k.1 / 4)).asid = (W.reads 65544).tm.asid ∧ ∃ q ∈ k.2.pend, q.global = true ∧ q.pcie = true ∧
      q.done = false ∧ q.failed = false ∧ q.va < 65536 + 65536 ∧ 65536 ≤ q.va) ∧
    (¬ ∃ k ∈ W.trims.strands, (W.trims.team (k.1 / 4)).asid = W.trims.tm.asid ∧ ∃ q ∈ k.2.pend, q.global = true ∧ q.pcie = true ∧
      q.done = false ∧ q.failed = false ∧ q.va < 65536 + 65536 ∧ 65536 ≤ q.va) ∧
    (W.trims.st.bnd ≠ none ∧ W.trims.st.stores = [] ∧ W.trims.homesMove = false ∧ W.trims.mapsOf 131072 ≤ 1) ∧
    ((W.range 65536 65536 0).st.bnd = none ∧ 2 ≤ ({ W.trims with mapCount := [(131072, 2)] } : State).mapsOf 131072) := by decide +kernel

theorem witness_PrivilegedInstructions_waits :
    (let s : State := W.moving.setSt (fun st => { st with level := 2 })
     s.homesMove = true ∧ s.pS 0 = true ∧ 2 ≤ s.rs.level) ∧
    (let s : State := (W.reads 65544).setSt (fun st => { st with level := 1 })
     1 ≤ s.rs.level ∧ ∃ k ∈ s.strands, (s.team (k.1 / 4)).asid = 1 ∧ ∃ q ∈ k.2.pend, q.global = true ∧ q.pcie = true ∧ q.done = false ∧
       q.failed = false ∧ q.va < 65536 + 65536 ∧ 65536 ≤ q.va) ∧
    ((W.at 2).homesMove = false ∧ ∀ k ∈ (W.at 1).strands, ∀ q ∈ k.2.pend, q.pcie = false ∨ q.done = true) ∧
    ((W.at 1).strand 0 ≠ {} ∧ ((W.at 1).team (0 / 4)).asid = 1) := by decide +kernel

theorem witness_Streams_jobs :
    ((jobK 0).dk < W.late.cycle + 256 * W.late.remaining 3 0 ∧ (W.late.stream 3).rung < (W.late.stream 3).minrung ∧
      { jobK 0 with drop := true }.drop = true ∧ { jobK 0 with published := true }.published = true ∧
      (W.framed { strm with jobs := [] } 0).jobOn 3 = some 0 ∧ ({ strm with jobs := [] } : Stream).job 0 = none) ∧
    ((∀ j ∈ ({ strm with deferred := [2], jobs := [jobK 1] } : Stream).jobs, j.k + 1 = 2) ∧
      (∃ j ∈ ({ strm with deferred := [2], jobs := [jobK 0, jobK 1] } : Stream).jobs, j.k + 1 ≠ 2) ∧
      (∃ j ∈ ({ strm with closing := true, encJobs := [(0, 5, 8, 16)] } : Stream).encJobs, j.1 ∉ strm.deferred)) := by decide +kernel

theorem witness_Encoders_bands :
    (({ held with encHeld := [(1, 1, 0)] } : Stream).encK + 1 = 1 ∧ (∃ x, (1, 1, x) ∈ ({ held with encHeld := [(1, 1, 0)] } : Stream).encHeld) ∧
      ({ held with encBand := 2 } : Stream).encK = 0 ∧ 1 < ({ held with encBand := 2 } : Stream).encBand ∧ held.encWait = none) ∧
    ((∃ j ∈ held.encJobs, j.1 = 1 ∧ j.2.1 + held.period ≤ 1000009) ∧ (∀ j ∈ strm.encJobs, j.1 = 1 → (0 : Nat) < j.2.1 + strm.period)) ∧
    ((({ W.coded strm with rcState := 3 } : State).rcState = 3) ∧ held.repeatAt.isSome = true ∧ (W.stream held).bitsFull 3 = false ∧
      held.bits.rsv - held.bits.pub ≠ held.bits.nslot) := by
  refine ⟨⟨by decide +kernel, ⟨0, by decide +kernel⟩, by decide +kernel⟩, by decide +kernel, by decide +kernel⟩


/-! Ring ports, selection, starts, dispositions (files 11, 13, 15, 18, 20) -/

def W.insecure (k : Nat) : State := { W.paired true with ide := [(k, { state := 2 })] }
def W.aborted : State := { W.paired true with ports := [(1, { en := true, next := 1, gone := [(1, 1)], prevrid := 7 })], ide := [(8, { state := 1 })] }
def W.alone : State := { W with strands := W.strands ++ [(262148, { run := .exited })] }

theorem witness_RingPorts_refused :
    ((NMap.get {} (W.insecure 8).ide (4 * (1 + 1) + 0)).state = 2 ∧ (NMap.get {} (W.insecure 9).ide (4 * (1 + 1) + 1)).state = 2 ∧
      (8 : Nat) ≠ (W.aborted.port 1).prevrid ∧ (NMap.get {} W.aborted.ide (4 * (1 + 1))).state = 1 ∧ 0 < 2) ∧
    ((1, 1) ∉ ((W.paired true).port 1).gone ∧ (1, 1) ∈ (W.aborted.port 1).gone ∧ (NMap.get {} (W.paired true).ide 9).state ≠ 2) ∧
    ((W.alone.strand 262148).run = .exited ∧ (W.strand 262148).run ≠ .exited ∧ (W.strand 262148).run ≠ .terminated) := by decide +kernel

/-- A stream task and two best-effort ones at the distributor. -/
def W.three : State := { W with launches := W.launches ++ [(2, { live := true, queue := 3, cost := 5, isReady := true }), (3, { live := true, queue := 512, isReady := true })] }
/-- Its best-effort team fills the core. -/
def W.busy : State := (W.setTm (fun T => { T with nstr := 4, status := .bound, born := 9 })).updLaunch 1 (fun L => { L with queue := 512 })

theorem witness_SelectionOrder :
    ((∀ x ∈ W.coreList, W.flat x < 256 ∧ (State.cluster W (x / 4)).temp < 2 ^ 24) ∧ (W.place 9 placeHdr).isSome = true ∧ (W.coreList.any (W.canHost 9 placeHdr)) = true ∧
      0 ∈ W.residents 0) ∧
    ((∀ x ∈ [2, 3], (W.three.launch x).seq < 2 ^ 64 ∧ (W.three.launch x).queue < 1024 ∧ (W.three.launch x).tReady < 2 ^ 64 ∧
        W.three.deadlineOf x < 2 ^ 64 ∧ W.three.cycle + 256 * (W.three.launch x).cost ≤ 2 ^ 63 + W.three.deadlineOf x) ∧
      W.three.select [2, 3] = some 2 ∧ W.three.select [3] = some 3 ∧ (W.three.launch 2).queue < 512 ∧ 512 ≤ (W.three.launch 3).queue) ∧
    ((∀ x ∈ [0], (W.busy.team x).born ≤ 2 ^ 63) ∧ W.busy.victims placeHdr [0] (0 + 1) = 0 :: []) := by decide +kernel

def W.leavesLast (n : Nat) : State := (W.setSt (fun st => { st with run := .exited })).updLaunch 1 (fun L => { L with hdr := some { placeHdr with cores := n }, jcb := some 65600 })

theorem witness_TeamsComeAndGo_exit :
    ((W.leavesLast 2).canExit 0 = true ∧
      ((W.leavesLast 2).launch ((W.leavesLast 2).team 0).launch).exited + 1 < ((((W.leavesLast 2).launch ((W.leavesLast 2).team 0).launch).hdr.map (·.cores)).getD 0)) ∧
    (let r := (W.store 65600).pubCells 0 (((W.store 65600).strand 0).toPublish 3)
     r.2.2 = [] ∧ lastStores r.2.1 ≠ []) ∧
    (((W.leavesLast 2).launch 1).jcb = some 65600 ∧ 65600 < 2 ^ 56 ∧ (W.leavesLast 2).holding = false ∧
      isOkA ((W.leavesLast 2).access 0 ((((W.leavesLast 2).launch 1).hdr.map (·.asid)).getD ((W.leavesLast 2).launch 1).subAsid) 0 65600 .write) = true ∧
      ({ count := 1, flags := 5 } : JcbUpdate).err = none) := by
  refine ⟨?_, ?_, ?_⟩ <;> decide +kernel

theorem witness_Starts_host :
    ((W.ready.boot.powered = true ∧ (NMap.get {} W.ready.ide 0).state ≠ 2 ∧ (NMap.get {} W.ready.ide 1).state ≠ 2) ∧
      ((W.start { step := 3 }).boot.powered = true ∧ (W.start { step := 3 }).boot.ready = false)) ∧
    (imageOk (W.start { step := 2 }).flash.image (W.start { step := 2 }).flash.floor = false ∧
      ({ W.start { step := 2 } with flash := { jnext := 1, unfinished := true } } : State).flash.unfinished = true) ∧
    (let s := { W.start { step := 3, variant := 1 } with cls := 1 }
     s.boot.variant = 1 ∧ s.boot.step = 3 ∧ s.boot.cfence = 0 ∧ s.flash.cfence = 0 ∧ 8 < 64 ∧ (8 : Nat) ≠ 0 ∧
       2 ≤ ((List.range 6).filter (fun c => !(8 : Nat).testBit c)).length ∧ 6 < 64 ∧ legalMap s.cls 8 6 = true) := by decide +kernel

theorem witness_RegisterWrites_host :
    ((NMap.get {} (W.insecure 1).ide 1).state = 2 ∧ (NMap.get {} (W.insecure 0).ide 0).state = 2) ∧
    (1 ≤ 1 ∧ W.ready.boot.ready = true ∧ (NMap.get {} W.ready.ide 0).state ≠ 2 ∧ (NMap.get {} W.ready.ide 1).state ≠ 2) ∧
    (3 < 512 ∧ (2 ^ 16 : Nat).testBit 63 = false ∧ (2 * 2 ^ 20 + 8) / 2 ^ 20 % 16 = 2 ∧ 5 ≤ (7 * 2 ^ 20) / 2 ^ 20 % 16) := by decide +kernel

theorem witness_Dispositions_course :
    (let s : State := { W with teams := [] }
     s.isCompute 0 = true ∧ ∀ u ∈ s.teams, ¬ (u.1 < 65536 ∧ (u.2.status = .bound ∨ u.2.status = .loading) ∧ courseOf u.2.core = 0)) ∧
    (let s := W.updLaunch 1 (fun L => { L with killed := true })
     s.isCompute 0 = true ∧ (s.launch 1).killed = true ∧
       (∃ u ∈ s.teams, (u.1 < 65536 ∧ (u.2.status = .bound ∨ u.2.status = .loading) ∧ courseOf u.2.core = 0) ∧ u.2.launch = 1) ∧
       ∀ u ∈ s.teams, (u.1 < 65536 ∧ (u.2.status = .bound ∨ u.2.status = .loading) ∧ courseOf u.2.core = 0) → u.2.launch = 1) ∧
    W.isCompute 5 = false := by decide +kernel

/-! ### One step each, on small states; the results are the spec's own tables or worked out by hand from the rule named -/

/-- Register a`n` after instruction `i`, and the flags. -/
def aAfter (i : Instr) (s : State) (n : Nat) : Option (Word × Flags) :=
  match Sys2Proof.Machine.exec i s with
  | .next t => some (aNow t n, t.st.flags)
  | _ => none
/-- Lane `l` of v4 of bay 1 after instruction `i`, and the flags. -/
def vAfter (i : Instr) (s : State) (l : Nat) : Option (Lane × Flags) :=
  match Sys2Proof.Machine.exec i s with
  | .next t => some (laneNow t 1 4 l, t.st.flags)
  | _ => none
/-- A strand whose a1, a2 and a4 hold values. -/
def W.ops (x y d : Word) : State := W.setSt (fun st => { st with a := [(1, x), (2, y), (4, d)] })
/-- A strand whose lanes 0 and 1 of v1, v2 and v4 of bay 1 hold values. -/
def W.lanes (x0 x1 y0 y1 d0 d1 : Lane) : State := W.setSt (fun st => { st with
  v := [(vKey 1 1 0, x0), (vKey 1 1 1, x1), (vKey 1 2 0, y0), (vKey 1 2 1, y1), (vKey 1 4 0, d0), (vKey 1 4 1, d1)] })

/-- R178: the sum wraps. -/
theorem test_add_wraps : aAfter (.add gOp) (W.ops 0xFFFFFFFFFFFFFFFF 2 0) 4 = some (1, 0) := by decide +kernel
/-- R178: ABS(−2^63) = −2^63; the high half of −1 × −1 is 0, unsigned 2^64 − 2. -/
theorem test_abs_least : aAfter (.abs { gOp with b := 0 }) (W.ops 0x8000000000000000 0 0) 4 = some (0x8000000000000000, 0) := by decide +kernel
theorem test_mulh : aAfter (.mulh gOp) (W.ops 0xFFFFFFFFFFFFFFFF 0xFFFFFFFFFFFFFFFF 0) 4 = some (0, 0) ∧
    aAfter (.mulhu gOp) (W.ops 0xFFFFFFFFFFFFFFFF 0xFFFFFFFFFFFFFFFF 0) 4 = some (0xFFFFFFFFFFFFFFFE, 0) := by decide +kernel
/-- R179: by zero all ones with DZ; the overflow case −2^63 and 0 with no flag; toward zero. -/
theorem test_div : aAfter (.div gOp) (W.ops 7 0 0) 4 = some (0xFFFFFFFFFFFFFFFF, fDZ) ∧
    aAfter (.div gOp) (W.ops 0x8000000000000000 0xFFFFFFFFFFFFFFFF 0) 4 = some (0x8000000000000000, 0) ∧
    aAfter (.div gOp) (W.ops 0xFFFFFFFFFFFFFFF9 2 0) 4 = some (0xFFFFFFFFFFFFFFFD, 0) := by decide +kernel
theorem test_rem : aAfter (.rem gOp) (W.ops 7 0 0) 4 = some (7, fDZ) ∧
    aAfter (.rem gOp) (W.ops 0x8000000000000000 0xFFFFFFFFFFFFFFFF 0) 4 = some (0, 0) ∧
    aAfter (.rem gOp) (W.ops 0xFFFFFFFFFFFFFFF9 2 0) 4 = some (0xFFFFFFFFFFFFFFFF, 0) := by decide +kernel
/-- R180: a shift by 64 is a shift by 0. -/
theorem test_shl : aAfter (.shl gOp) (W.ops 5 64 0) 4 = some (5, 0) ∧ aAfter (.sar gOp) (W.ops 0x8000000000000000 63 0) 4 = some (0xFFFFFFFFFFFFFFFF, 0) := by
  decide +kernel
/-- R181: zeros of 0, and bit 0 moved to bit 63. -/
theorem test_counts : aAfter (.clz { gOp with b := 0 }) (W.ops 0 0 0) 4 = some (64, 0) ∧ aAfter (.ctz { gOp with b := 0 }) (W.ops 8 0 0) 4 = some (3, 0) ∧
    aAfter (.brev { gOp with b := 0 }) (W.ops 1 0 0) 4 = some (0x8000000000000000, 0) := by decide +kernel
/-- R182: offset 4 and width 8 of 0x1F80 hold 0xF8, −8 signed; R183: with n = 0 FSHL returns the old aD and FSHR A. -/
theorem test_fields : aAfter (.bfx gOp) (W.ops 0x1F80 0x804 0) 4 = some (0xFFFFFFFFFFFFFFF8, 0) ∧
    aAfter (.bfxu gOp) (W.ops 0x1F80 0x804 0) 4 = some (0xF8, 0) ∧ aAfter (.bfi gOp) (W.ops 0xAB 0x804 0xFFFF) 4 = some (0xFABF, 0) := by decide +kernel
theorem test_funnel : aAfter (.fshl gOp) (W.ops 7 0 9) 4 = some (9, 0) ∧ aAfter (.fshr gOp) (W.ops 7 0 9) 4 = some (7, 0) ∧
    aAfter (.fshl gOp) (W.ops 0x8000000000000000 1 1) 4 = some (3, 0) := by decide +kernel
/-- R186: movl.hi keeps the low half of the old register. -/
theorem test_movl_hi : aAfter (.movl { gOp with a := 0, b := 1, imm := 0x12345678 }) (W.ops 0 0 0xFFFFFFFF9ABCDEF0) 4 = some (0x123456789ABCDEF0, 0) := by
  decide +kernel
/-- R203: 1.5 + 2.25 = 3.75 and 1.5 × −2 = −3 as FP32 codes; the largest code times itself overflows to infinity. -/
theorem test_fadd : aAfter (.fadd gOp) (W.ops 0x3FC00000 0x40100000 0) 4 = some (0x40700000, 0) := by decide +kernel
theorem test_fmul : aAfter (.fmul gOp) (W.ops 0x3FC00000 0xC0000000 0) 4 = some (0xC0400000, 0) ∧
    aAfter (.fmul gOp) (W.ops 0x7F7FFFFF 0x7F7FFFFF 0) 4 = some (0x7F800000, fOF ||| fNX) := by decide +kernel
/-- R220: the table of VDOT4S and VDOT4 on two lanes. -/
theorem test_vdot4s :
    vAfter (.vdot4s vOp) (W.lanes 0x80807F7F 0x7F7F7F7F 0x7F7F7F7F 0x7F7F7F7F 0x7FFFFF9C 0x7FFFFFD0) 0 = some (0x7FFFFE9E, fSAT) ∧
    vAfter (.vdot4s vOp) (W.lanes 0x80807F7F 0x7F7F7F7F 0x7F7F7F7F 0x7F7F7F7F 0x7FFFFF9C 0x7FFFFFD0) 1 = some (0x7FFFFFFF, fSAT) := by decide +kernel
theorem test_vdot4 :
    vAfter (.vdot4 vOp) (W.lanes 0x80807F7F 0x7F7F7F7F 0x7F7F7F7F 0x7F7F7F7F 0x7FFFFF9C 0x7FFFFFD0) 0 = some (0x7FFFFE9E, 0) ∧
    vAfter (.vdot4 vOp) (W.lanes 0x80807F7F 0x7F7F7F7F 0x7F7F7F7F 0x7F7F7F7F 0x7FFFFF9C 0x7FFFFFD0) 1 = some (0x8000FBD4, 0) := by decide +kernel
/-- R221, R222: the sum of opposite zeros is +0; −0 lies below +0. -/
theorem test_vfadd_zero : vAfter (.vfadd vOp) (W.lanes 0x80000000 0 0 0 0 0) 0 = some (0, 0) := by decide +kernel
theorem test_vfmin_zero : vAfter (.vfmin vOp) (W.lanes 0x80000000 0 0 0x80000000 0 0) 0 = some (0x80000000, 0) ∧
    vAfter (.vfmin vOp) (W.lanes 0x80000000 0 0 0x80000000 0 0) 1 = some (0x80000000, 0) := by decide +kernel
/-- R238: `.g` writes 16b + l. -/
theorem test_vlane : vAfter (.vlane { vOp with a := 0, b := 1 }) W 5 = some (21, 0) ∧ vAfter (.vlane { vOp with a := 0, b := 0 }) W 5 = some (5, 0) := by
  decide +kernel
/-- A load of another bay's lane count does not touch bay 0. -/
theorem test_vlane_frame : (match Sys2Proof.Machine.exec (.vlane { vOp with a := 0, b := 1 }) W with | .next t => laneNow t 0 4 5 | _ => 1) = 0 := by
  decide +kernel

end Sys2Proof.Tests
end

/-! SUPPORT. What the decoder of each slot accepts (file 04 R144): every answer of an opcode map is a refusal or goes through `accept`,
so an accepted instruction is well formed, and it is one of the slot whose map was read. -/

namespace Sys2Proof

/-- The decoder's answer `r` is a refusal, or a well-formed instruction of slot `k`. -/
def SoundFor (k : Nat) (r : Except SlotReject Instr) : Prop := ∀ i, r = .ok i → wf i = true ∧ slotOf i = some k

theorem soundFor_error (k : Nat) (e : SlotReject) : SoundFor k (.error e) := fun _ h => by cases h

theorem soundFor_accept {k : Nat} {i : Instr} (res : Bool) (hslot : slotOf i = some k) : SoundFor k (accept res i) := by
  intro j h
  unfold accept at h
  split at h
  · next hres =>
    cases h
    exact ⟨(Bool.and_eq_true_iff.mp hres).2, hslot⟩
  · cases h

theorem soundFor_ite {k : Nat} {c : Prop} [Decidable c] {r r' : Except SlotReject Instr} (h : SoundFor k r) (h' : SoundFor k r') :
    SoundFor k (if c then r else r') := by
  split
  · exact h
  · exact h'

theorem soundFor_decodeCmp {k : Nat} {i : Instr} (w : Nat) (hslot : slotOf i = some k) : SoundFor k (decodeCmp w i) :=
  soundFor_ite (soundFor_accept true hslot) (soundFor_error k _)

/-- R139: each assigned opcode answers through `accept`. -/
theorem soundFor_decodeC (w : Nat) : SoundFor 0 (decodeC w) := by
  unfold decodeC
  split
  case h_25 => exact soundFor_error _ _
  all_goals exact soundFor_accept _ rfl

/-- R140; opcode 0x3D reads its form from field B. -/
theorem soundFor_decodeA (w hi : Nat) : SoundFor 1 (decodeA w hi) := by
  unfold decodeA
  split
  case h_42 => exact soundFor_ite (soundFor_accept _ rfl) (soundFor_ite (soundFor_accept _ rfl) (soundFor_accept _ rfl))
  case h_62 => exact soundFor_error _ _
  all_goals exact soundFor_accept _ rfl

/-- R141; opcode 0x65 reads its form from field B. -/
theorem soundFor_decodeV (bay w : Nat) : SoundFor (2 + bay) (decodeV bay w) := by
  refine soundFor_ite (soundFor_decodeCmp w rfl) (soundFor_ite (soundFor_decodeCmp w rfl) (soundFor_ite (soundFor_decodeCmp w rfl) ?_))
  split
  case h_58 =>
    exact soundFor_ite (soundFor_accept _ rfl)
      (soundFor_ite (soundFor_accept _ rfl) (soundFor_ite (soundFor_accept _ rfl) (soundFor_accept _ rfl)))
  case h_59 => exact soundFor_error _ _
  all_goals exact soundFor_accept _ rfl

/-- R142: each assigned opcode answers through `accept`. -/
theorem soundFor_decodeM (w : Nat) : SoundFor 10 (decodeM w) := by
  unfold decodeM
  split
  case h_14 => exact soundFor_error _ _
  all_goals exact soundFor_accept _ rfl

/-- R143; opcodes 0x21, 0x22, 0x43 and 0xF2 read their form from field SUB. -/
theorem soundFor_decodeD (w : Nat) : SoundFor 11 (decodeD w) := by
  unfold decodeD
  split
  case h_12 => exact soundFor_ite (soundFor_accept _ rfl) (soundFor_accept _ rfl)
  case h_13 =>
    exact soundFor_ite (soundFor_accept _ rfl)
      (soundFor_ite (soundFor_accept _ rfl) (soundFor_ite (soundFor_accept _ rfl) (soundFor_accept _ rfl)))
  case h_29 | h_32 =>
    exact soundFor_ite (soundFor_accept _ rfl) (soundFor_ite (soundFor_accept _ rfl) (soundFor_accept _ rfl))
  case h_34 => exact soundFor_error _ _
  all_goals exact soundFor_accept _ rfl

/-- The slot number picks the map: 0 C, 1 A, 10 M, 11 D, and the others bay `k - 2` of V. -/
theorem soundFor_decodeSlot (k : Nat) (ws : List Nat) : SoundFor k (decodeSlot k ws) := by
  by_cases hC : k = 0
  · subst hC; exact soundFor_decodeC _
  by_cases hA : k = 1
  · subst hA; exact soundFor_decodeA _ _
  by_cases hM : k = 10
  · subst hM; exact soundFor_decodeM _
  by_cases hD : k = 11
  · subst hD; exact soundFor_decodeD _
  have hV : 2 + (k - 2) = k := by omega
  simpa [decodeSlot, hC, hA, hM, hD, hV] using soundFor_decodeV (k - 2) (wordAt ws 0)

/-- Settles O58: whatever slot and words are read, the slot's map answers with a refusal or through `accept`. -/
theorem decodedIsWellFormed : Obligations.DecodedIsWellFormed := by
  intro k ws i _ _ h
  exact soundFor_decodeSlot k ws i h

end Sys2Proof

/-! SUPPORT. The scale under which VWDN decodes its block (file 06 R226, R229): the model takes the scale of the margin in mode 2 and 1.0
in each other mode, also in mode 3, which R226 calls illegal. -/

namespace Sys2Proof

open Sys2Proof.Machine

theorem mapFlags_fst {α β : Type} (f : α → β × Flags) (l : List α) : (mapFlags f l).1 = l.map (fun x => (f x).1) := by
  simp [mapFlags]

theorem r32_fst (v : FVal × Flags) : (r32 v).1 = fp32.decode (fp32.result v).1 := rfl

/-- Where no rotation changes and the descriptor supplies no scale, the wide elements are the codes decoded under the scale 1.0. -/
theorem widenBlock_unscaled (s : State) (c u : Nat) (codes : List Nat) (hmode : cdSmode c ≠ 2) (htag : tagEq u (cdWtag c) = true) :
    (s.widenBlock c u codes).1 =
      codes.map (fun k => fp32.decode (fp32.result (decodeElem (cdFmt c) (s.codebook (cdCb c)) bf16One k)).1) := by
  simp only [State.widenBlock, State.rerotate, hmode, htag, if_true, if_false, mapFlags_fst, r32_fst]

/-- The F8a code of 1.0 is 1.0 under the scale 1.0 and 0 under the scale 0. -/
theorem f8aOne_under_scale (book : List Nat) :
    fp32.decode (fp32.result (decodeElem 4 book bf16One 0x38)).1 ≠ fp32.decode (fp32.result (decodeElem 4 book 0 0x38)).1 := by
  have hone : codeValue 4 book 0x38 = codeValue 4 [] 0x38 := rfl
  simp only [decodeElem, hone]
  decide

/-- Refutes O20, by its last clause, on the values of VWDN: the clause excludes only scale mode 1 and fixes the scale only in modes 0 and
2, so under a descriptor of mode 3 (FMT 4, SPAN 1, no tag) it claims every scale at once. The model decodes sixteen F8a codes of 1.0 there
under the scale 1.0, and not under the scale 0. VWDN itself never decodes under such a descriptor, which R226 makes an illegal encoding. -/
theorem not_narrowAndWiden : ¬ Obligations.NarrowAndWiden := by
  unfold Obligations.NarrowAndWiden
  rintro ⟨-, -, -, -, -, hwiden⟩
  let c := 3 * 2 ^ 32 + 2 ^ 30 + 4
  have hmode : cdSmode c = 3 := by decide
  have hfmt : cdFmt c = 4 := by decide
  have hzero := (hwiden State.reset c 0 (List.replicate 16 0x38) 0 _ (by decide) (by decide) (by decide)
    (by simp [hmode]) (by simp [hmode]) (by simp [hmode]) rfl (.inl rfl) (.inl (by decide))).1 (.inl (by decide))
  rw [widenBlock_unscaled _ _ _ _ (by simp [hmode]) (by decide), hfmt, List.map_replicate, List.map_replicate] at hzero
  exact f8aOne_under_scale _ (Option.some.inj (congrArg List.head? hzero))

end Sys2Proof

/-! SUPPORT. What a word of each format carries (file 04 R125, R126; file 07 R242, R243, R300): the word that the encoder's `put` writes for
an opcode and for fields within their widths holds that opcode, has its reserved bits clear, and gives the fields back. -/

namespace Sys2Proof

/-- Word `w` carries opcode `op` and the fields `o`, and its reserved bits are clear. -/
def Carries {F : Type} (opcode : Nat → Nat) (reserved : Nat → Bool) (get : Nat → F) (w op : Nat) (o : F) : Prop :=
  opcode w = op ∧ reserved w = true ∧ get w = o

section
variable {op : Nat}

theorem carries_putG {o : OpG} (hop : op < 128) (ho : o.inRange = true) :
    Carries op32 (fun _ => true) getG (putG op o) op o := by
  simp only [OpG.inRange, Bool.and_eq_true, decide_eq_true_eq] at ho
  obtain ⟨g, d, a, b⟩ := o
  simp only [Carries, op32, getG, fG, fD, fA, fB, putG, OpG.mk.injEq, true_and] at ho ⊢
  omega

theorem carries_putI {o : OpI} (hop : op < 128) (ho : o.g < 128 ∧ o.d < 64 ∧ o.imm < 4096) :
    Carries op32 (fun _ => true) getI (putI op o) op o := by
  obtain ⟨g, d, imm⟩ := o
  simp only [Carries, op32, getI, fG, fD, putI, OpI.mk.injEq, true_and] at ho ⊢
  omega

theorem carries_putB {o : OpB} (hop : op < 128) (ho : o.g < 128 ∧ o.k < 8 ∧ o.disp < 32768) :
    Carries op32 (fun _ => true) getB (putB op o) op o := by
  obtain ⟨g, k, disp⟩ := o
  simp only [Carries, op32, getB, fG, putB, OpB.mk.injEq, true_and] at ho ⊢
  omega

theorem carries_putLp {o : OpLp} (hop : op < 128) (ho : o.inRange = true) :
    Carries op32 (fun _ => true) getLp (putLp op o) op o := by
  simp only [OpLp.inRange, Bool.and_eq_true, decide_eq_true_eq] at ho
  obtain ⟨g, cnt, last⟩ := o
  simp only [Carries, op32, getLp, fG, fD, putLp, OpLp.mk.injEq, true_and] at ho ⊢
  omega

theorem carries_putN {o : OpN} (hop : op < 128) (ho : o.inRange = true) :
    Carries op32 (fun _ => true) getN (putN op o) op o := by
  simp only [OpN.inRange, Bool.and_eq_true, decide_eq_true_eq] at ho
  obtain ⟨g, imm⟩ := o
  simp only [Carries, op32, getN, fG, putN, OpN.mk.injEq, true_and] at ho ⊢
  omega

theorem carries_putQ {o : OpQ} (hop : op < 128) (ho : o.inRange = true) :
    Carries op32 resQ getQ (putQ op o) op o := by
  simp only [OpQ.inRange, Bool.and_eq_true, decide_eq_true_eq] at ho
  obtain ⟨pd, pa, pb, part⟩ := o
  simp only [Carries, op32, resQ, beq_iff_eq, getQ, fG, putQ, OpQ.mk.injEq] at ho ⊢
  omega

/-- The long form's second word is IMM32 itself. -/
theorem carries_putL {o : OpL} (hop : op < 128) (ho : o.inRange = true) :
    Carries op32 (fun _ => true) (getL · o.imm) (putL op o) op o := by
  simp only [OpL.inRange, Bool.and_eq_true, decide_eq_true_eq] at ho
  obtain ⟨g, d, a, b, imm⟩ := o
  simp only [Carries, op32, getL, fG, fD, fA, fB, putL, OpL.mk.injEq, true_and] at ho ⊢
  omega

/-- The slot, and not the word, says the bay. -/
theorem carries_putV {o : OpV} (hop : op < 128) (ho : o.inRange = true) :
    Carries op32 (fun _ => true) (getV o.bay) (putV op o) op o := by
  simp only [OpV.inRange, Bool.and_eq_true, decide_eq_true_eq] at ho
  obtain ⟨bay, g, d, a, b⟩ := o
  simp only [Carries, op32, getV, fG, fD, fA, fB, putV, OpV.mk.injEq, true_and] at ho ⊢
  omega

theorem carries_putVI {o : OpVI} (hop : op < 128) (ho : o.g < 128 ∧ o.d < 64 ∧ o.imm < 4096) :
    Carries op32 (fun _ => true) (getVI o.bay) (putVI op o) op o := by
  obtain ⟨bay, g, d, imm⟩ := o
  simp only [Carries, op32, getVI, fG, fD, putVI, OpVI.mk.injEq, true_and] at ho ⊢
  omega

/-- R125, format P: the condition stands in the low three bits of the opcode. -/
theorem carries_putP {o : OpP} (hop : op % 8 = 0 ∧ op < 128) (ho : o.inRange = true) :
    Carries op32 (fun _ => true) (getP o.bay) (putP op o) (op + o.cc) o := by
  simp only [OpP.inRange, Bool.and_eq_true, decide_eq_true_eq] at ho
  obtain ⟨bay, cc, pt, pf, a, b⟩ := o
  simp only [Carries, op32, getP, fG, fD, fA, fB, putP, OpP.mk.injEq, true_and] at ho ⊢
  omega

theorem paneOperand_lt {handle : Bool} {x : Nat} (h : paneOperand handle x = true) : x < 2048 := by
  simp only [paneOperand, Bool.or_eq_true, Bool.and_eq_true, decide_eq_true_eq] at h
  omega

theorem carries_putMA {o : OpMA} (hop : op < 256) (ho : o.inRange = true) (hwp : o.wp < 2048) (hxp : o.xp < 2048) :
    Carries op64 resMA getMA (putMA op o) op o := by
  simp only [OpMA.inRange, Bool.and_eq_true, decide_eq_true_eq] at ho
  obtain ⟨g, td, wp, xp, kp, int⟩ := o
  simp only [Carries, op64, resMA, beq_iff_eq, getMA, fG64, putMA, OpMA.mk.injEq] at ho hwp hxp ⊢
  omega

theorem carries_putMX {o : OpMX} (hop : op < 256) (ho : o.inRange = true) (hxp : o.xp < 2048) :
    Carries op64 resMX getMX (putMX op o) op o := by
  simp only [OpMX.inRange, Bool.and_eq_true, decide_eq_true_eq] at ho
  obtain ⟨g, t, xp, fmt, sgeo, tag, cb, chalf, int⟩ := o
  simp only [Carries, op64, resMX, beq_iff_eq, getMX, fG64, putMX, OpMX.mk.injEq] at ho hxp ⊢
  omega

theorem carries_putMT {o : OpMT} (hop : op < 256) (ho : o.inRange = true) :
    Carries op64 resMT getMT (putMT op o) op o := by
  simp only [OpMT.inRange, Bool.and_eq_true, decide_eq_true_eq] at ho
  obtain ⟨g, td, ta, tb, col, mode, int, cnt⟩ := o
  simp only [Carries, op64, resMT, beq_iff_eq, getMT, fG64, putMT, OpMT.mk.injEq] at ho ⊢
  omega

theorem carries_putMI {o : OpMI} (hop : op < 256) (ho : o.g < 128 ∧ o.bay < 8 ∧ o.va < 64 ∧ o.half < 2) :
    Carries op64 resMI getMI (putMI op o) op o := by
  obtain ⟨g, bay, va, half⟩ := o
  simp only [Carries, op64, resMI, beq_iff_eq, getMI, fG64, putMI, OpMI.mk.injEq] at ho ⊢
  omega

theorem carries_putMW {o : OpMW} (hop : op < 256) (ho : o.g < 128 ∧ o.one < 2 ∧ o.td < 32) :
    Carries op64 resMW getMW (putMW op o) op o := by
  obtain ⟨g, one, td⟩ := o
  simp only [Carries, op64, resMW, beq_iff_eq, getMW, fG64, putMW, OpMW.mk.injEq] at ho ⊢
  omega

theorem carries_putDE {o : OpDE} (hop : op < 256) (ho : o.inRange = true) :
    Carries op64 (fun _ => true) getDE (putDE op o) op o := by
  simp only [OpDE.inRange, Bool.and_eq_true, decide_eq_true_eq] at ho
  obtain ⟨g, ssp, dsp, src, dst, np, pr, aux, aux2, mod⟩ := o
  simp only [Carries, op64, getDE, fG64, putDE, OpDE.mk.injEq, true_and] at ho ⊢
  omega

theorem carries_putDR {o : OpDR} (hop : op < 256) (ho : o.inRange = true) :
    Carries op64 resDR getDR (putDR op o) op o := by
  simp only [OpDR.inRange, Bool.and_eq_true, decide_eq_true_eq] at ho
  obtain ⟨g, rd, ra, rb, rc, sub, pt⟩ := o
  simp only [Carries, op64, resDR, beq_iff_eq, getDR, fG64, putDR, OpDR.mk.injEq] at ho ⊢
  omega

end

end Sys2Proof

/-! SUPPORT. The decoder of a slot reads back the words of the encoder (file 04 R124, R139 to R143). -/

namespace Sys2Proof

/-! The map of each slot, as the words of the slot reach it (R124). -/

theorem decodeSlot_C (w : Nat) : decodeSlot 0 [w] = decodeC w := rfl

theorem decodeSlot_A_short (w : Nat) : decodeSlot 1 [w] = decodeA w 0 := by simp [decodeSlot, wordAt]

theorem decodeSlot_A_long {w : Nat} (hi : Nat) (h : 96 ≤ op32 w) : decodeSlot 1 [w, hi] = decodeA w hi := by
  simp [decodeSlot, wordAt, lenA, h]

theorem decodeSlot_V {bay : Nat} (w : Nat) (h : bay < 8) : decodeSlot (2 + bay) [w] = decodeV bay w := by
  simp [decodeSlot, wordAt, show ¬ 2 + bay = 1 by omega, show ¬ 2 + bay = 10 by omega, show ¬ 2 + bay = 11 by omega]

theorem dword_two (w : Nat) : dword (two w) 0 = w := Nat.mod_add_div w 4294967296

theorem decodeSlot_M (w : Nat) : decodeSlot 10 (two w) = decodeM w := congrArg decodeM (dword_two w)

theorem decodeSlot_D (w : Nat) : decodeSlot 11 (two w) = decodeD w := congrArg decodeD (dword_two w)

/-- A well-formed instruction is read back where the words of its slot reach a map as the word `w`, and the map has a row for the opcode and
the fields that `w` carries. -/
theorem decodeSlot_of_carries {F : Type} {opcode : Nat → Nat} {reserved : Nat → Bool} {get : Nat → F} {w op k : Nat} {o : F}
    {mk : F → Instr} {ws : List Nat} {decode : Nat → Except SlotReject Instr}
    (hread : opcode w = op → decodeSlot k ws = decode w) (hw : Carries opcode reserved get w op o)
    (hrow : ∀ w, opcode w = op → get w = o → decode w = accept (reserved w) (mk (get w))) (hwf : wf (mk o) = true) :
    decodeSlot k ws = .ok (mk o) := by
  obtain ⟨hop, hres, hget⟩ := hw
  rw [hread hop, hrow w hop hget, hres, hget]
  simp [accept, hwf]

theorem OpV.bay_lt {o : OpV} (h : o.inRange = true) : o.bay < 8 := by
  simp only [OpV.inRange, Bool.and_eq_true, decide_eq_true_eq] at h
  omega

theorem OpP.bay_cc_lt {o : OpP} (h : o.inRange = true) : o.bay < 8 ∧ o.cc < 6 := by
  simp only [OpP.inRange, Bool.and_eq_true, decide_eq_true_eq] at h
  omega

theorem fB_of_getG {w : Nat} {o : OpG} (h : getG w = o) : fB w = o.b := congrArg OpG.b h

theorem fB_of_getV {bay w : Nat} {o : OpV} (h : getV bay w = o) : fB w = o.b := congrArg OpV.b h

/-! R141: the compares stand at eight opcodes each, and the forms of opcode 0x65 are read from field B. -/

theorem decodeV_vcmp {bay w : Nat} (hop : op32 w / 8 = 4) (hcc : op32 w % 8 < 6) :
    decodeV bay w = accept true (.vcmp (getP bay w)) := by
  simp [decodeV, decodeCmp, hop, hcc]

theorem decodeV_vcmpi {bay w : Nat} (hop : op32 w / 8 = 5) (hcc : op32 w % 8 < 6) :
    decodeV bay w = accept true (.vcmpi (getP bay w)) := by
  simp [decodeV, decodeCmp, hop, hcc]

theorem decodeV_vfcmp {bay w : Nat} (hop : op32 w / 8 = 6) (hcc : op32 w % 8 < 6) :
    decodeV bay w = accept true (.vfcmp (getP bay w)) := by
  simp [decodeV, decodeCmp, hop, hcc]

theorem decodeV_xmovv {bay w : Nat} (hop : op32 w = 0x65) : decodeV bay w =
    if fB w < 8 then accept true (.xmovvBay (getV bay w))
    else if fB w < 16 then accept true (.xmovvAll (getV bay w))
    else if fB w < 32 then accept true (.xmovvA (getV bay w))
    else accept true (.xmovvA2 (getV bay w)) := by
  rw [decodeV, hop]
  rfl

/-- Settles O57, instruction by instruction: the word written carries the instruction's opcode and fields, and the row of its opcode in the
map of its slot builds the instruction again. A device event has no slot. -/
theorem encodeDecode : Obligations.EncodeDecode := by
  unfold Obligations.EncodeDecode
  intro i k hwf hslot
  cases i <;> cases hslot
  case pbr o =>
    have hrange : o.g < 128 ∧ o.k < 8 ∧ o.disp < 32768 := by unfold wf at hwf; simp_all
    exact decodeSlot_of_carries (fun _ => decodeSlot_C _) (carries_putB (by decide) hrange) (fun w hop _ => by rw [decodeC, hop]; rfl) hwf
  case pbrx o | br o | brl o | sleep o =>
    have ho : o.inRange = true := by unfold wf at hwf; simp_all
    exact decodeSlot_of_carries (fun _ => decodeSlot_C _) (carries_putG (by decide) ho) (fun w hop _ => by rw [decodeC, hop]; rfl) hwf
  case loop o | loopi o | loopm o =>
    have ho : o.inRange = true := by unfold wf at hwf; simp_all
    exact decodeSlot_of_carries (fun _ => decodeSlot_C _) (carries_putLp (by decide) ho) (fun w hop _ => by rw [decodeC, hop]; rfl) hwf
  case lexit o | waitp o | bar o | phase o | trap o | tret o | sret o | exit o | yield o =>
    have ho : o.inRange = true := by unfold wf at hwf; simp_all
    exact decodeSlot_of_carries (fun _ => decodeSlot_C _) (carries_putN (by decide) ho) (fun w hop _ => by rw [decodeC, hop]; rfl) hwf
  case pand o | por o | pxor o | pandn o | pany o | pall o | pmov o =>
    have ho : o.inRange = true := by unfold wf at hwf; simp_all
    exact decodeSlot_of_carries (fun _ => decodeSlot_C _) (carries_putQ (by decide) ho) (fun w hop _ => by rw [decodeC, hop]; rfl) hwf
  case add o | sub o | mul o | mulh o | mulhu o | div o | divu o | rem o | remu o | min o | max o | minu o | maxu o | abs o | and o
      | or o | xor o | andn o | orn o | shl o | shr o | sar o | rotl o | shli o | shri o | sari o | clz o | ctz o | popc o | brev o
      | bfx o | bfxu o | bfi o | fshl o | fshr o | csrr o | csrw o | mbxr o | mbxw o | cyc o | wget o | wrange o | fadd o | fsub o
      | fmul o | ffma o | fcvt o =>
    have ho : o.inRange = true := by unfold wf at hwf; simp_all
    exact decodeSlot_of_carries (decode := (decodeA · 0)) (fun _ => decodeSlot_A_short _) (carries_putG (by decide) ho)
      (fun w hop _ => by rw [decodeA, hop]; rfl) hwf
  case xmovaB o | xmovaV o | xmovaPair o =>
    have ho : o.inRange = true := by unfold wf at hwf; simp_all
    exact decodeSlot_of_carries (decode := (decodeA · 0)) (fun _ => decodeSlot_A_short _) (carries_putG (by decide) ho)
      (fun w hop hget => by unfold wf at hwf; rw [decodeA, hop, fB_of_getG hget]; simp_all) hwf
  case movi o =>
    have hrange : o.g < 128 ∧ o.d < 64 ∧ o.imm < 4096 := by unfold wf at hwf; simp_all
    exact decodeSlot_of_carries (decode := (decodeA · 0)) (fun _ => decodeSlot_A_short _) (carries_putI (by decide) hrange)
      (fun w hop _ => by rw [decodeA, hop]; rfl) hwf
  case movl o | addi o | cmp o | cmpi o | sel o | fcmp o | ld o | st o | ldx o | stx o | atom o | cas o =>
    have ho : o.inRange = true := by unfold wf at hwf; simp_all
    exact decodeSlot_of_carries (decode := (decodeA · o.imm)) (fun hop => decodeSlot_A_long _ (by omega)) (carries_putL (by decide) ho)
      (fun w hop _ => by rw [decodeA, hop]; rfl) hwf
  case vadd o | vsub o | vmul o | vmulh o | vmulhu o | vmad o | vmin o | vmax o | vminu o | vmaxu o | vabs o | vand o | vor o | vxor o
      | vandn o | vshl o | vshr o | vsar o | vbfx o | vbfxu o | vbfi o | vfshl o | vfshr o | vclz o | vpopc o | vsel o | vaddsat o
      | vsubsat o | vdot4 o | vdot4s o | vdot2 o | vfadd o | vfsub o | vfmul o | vfma o | vbfma o | vfmin o | vfmax o | vfabs o
      | vfneg o | vfcvt o | vnrw o | vwdn o | vrcp o | vrsq o | vexp2 o | vlog2 o | vld o | vst o | vldg o | vsts o | vshuf o | vred o
      | vscan o | vcntp o | vlane o =>
    have ho : o.inRange = true := by unfold wf at hwf; simp_all
    exact decodeSlot_of_carries (fun _ => decodeSlot_V _ (OpV.bay_lt ho)) (carries_putV (by decide) ho)
      (fun w hop _ => by rw [decodeV, hop]; rfl) hwf
  case xmovvBay o | xmovvAll o | xmovvA o | xmovvA2 o =>
    have ho : o.inRange = true := by unfold wf at hwf; simp_all
    exact decodeSlot_of_carries (fun _ => decodeSlot_V _ (OpV.bay_lt ho)) (carries_putV (by decide) ho)
      (fun w hop hget => by unfold wf at hwf; rw [decodeV_xmovv hop, fB_of_getV hget]; grind) hwf
  case vcmp o =>
    obtain ⟨hbay, hcc⟩ := OpP.bay_cc_lt hwf
    exact decodeSlot_of_carries (fun _ => decodeSlot_V _ hbay) (carries_putP (by decide) hwf)
      (fun w hop _ => decodeV_vcmp (by omega) (by omega)) hwf
  case vcmpi o =>
    obtain ⟨hbay, hcc⟩ := OpP.bay_cc_lt hwf
    exact decodeSlot_of_carries (fun _ => decodeSlot_V _ hbay) (carries_putP (by decide) hwf)
      (fun w hop _ => decodeV_vcmpi (by omega) (by omega)) hwf
  case vfcmp o =>
    obtain ⟨hbay, hcc⟩ := OpP.bay_cc_lt hwf
    exact decodeSlot_of_carries (fun _ => decodeSlot_V _ hbay) (carries_putP (by decide) hwf)
      (fun w hop _ => decodeV_vfcmp (by omega) (by omega)) hwf
  case vmovi o =>
    obtain ⟨hbay, hrange⟩ : o.bay < 8 ∧ o.g < 128 ∧ o.d < 64 ∧ o.imm < 4096 := by unfold wf at hwf; simp_all
    exact decodeSlot_of_carries (fun _ => decodeSlot_V _ hbay) (carries_putVI (by decide) hrange)
      (fun w hop _ => by rw [decodeV, hop]; rfl) hwf
  case mma o | mmaz o | mmag o =>
    obtain ⟨ho, hwp, hxp⟩ : o.inRange = true ∧ paneOperand false o.wp = true ∧ paneOperand false o.xp = true := by
      unfold wf at hwf; simp_all
    exact decodeSlot_of_carries (fun _ => decodeSlot_M _) (carries_putMA (by decide) ho (paneOperand_lt hwp) (paneOperand_lt hxp))
      (fun w hop _ => by rw [decodeM, hop]; rfl) hwf
  case midx o =>
    have hrange : o.g < 128 ∧ o.bay < 8 ∧ o.va < 64 ∧ o.half < 2 := by unfold wf at hwf; simp_all
    exact decodeSlot_of_carries (fun _ => decodeSlot_M _) (carries_putMI (by decide) hrange)
      (fun w hop _ => by rw [decodeM, hop]; rfl) hwf
  case mld o | mst o =>
    obtain ⟨ho, hxp⟩ : o.inRange = true ∧ paneOperand false o.xp = true := by unfold wf at hwf; simp_all
    exact decodeSlot_of_carries (fun _ => decodeSlot_M _) (carries_putMX (by decide) ho (paneOperand_lt hxp))
      (fun w hop _ => by rw [decodeM, hop]; rfl) hwf
  case mzero o | mtrn o | mrowmax o | mrowsum o | mscale o | maddt o =>
    have ho : o.inRange = true := by unfold wf at hwf; simp_all
    exact decodeSlot_of_carries (fun _ => decodeSlot_M _) (carries_putMT (by decide) ho) (fun w hop _ => by rw [decodeM, hop]; rfl) hwf
  case mwait o =>
    have hrange : o.g < 128 ∧ o.one < 2 ∧ o.td < 32 := by unfold wf at hwf; simp_all
    exact decodeSlot_of_carries (fun _ => decodeSlot_M _) (carries_putMW (by decide) hrange)
      (fun w hop _ => by rw [decodeM, hop]; rfl) hwf
  case dcopy o | dcopy2 o | dgath o | dfill o | dtbl o | shut o | openp o | rsend o | rrecv o =>
    have ho : o.inRange = true := by unfold wf at hwf; simp_all
    exact decodeSlot_of_carries (fun _ => decodeSlot_D _) (carries_putDE (by decide) ho) (fun w hop _ => by rw [decodeD, hop]; rfl) hwf
  case dtblld o | dpref o | dflush o | enq o | tsub o | launch o | jraise o | jwait o | jdone o | jflags o | pfxlook o | pfxins o
      | trim o | pin o | stopen o | stclose o | strung o | seedset o | cbset o | crset o =>
    have ho : o.inRange = true := by unfold wf at hwf; simp_all
    exact decodeSlot_of_carries (fun _ => decodeSlot_D _) (carries_putDR (by decide) ho) (fun w hop _ => by rw [decodeD, hop]; rfl) hwf
  case deq o | deqNb o | qctlOpen o | qctlClose o | qctlBackoff o | qctlDepth o | frameRsv o | framePub o | frameChk o | xlinvRng o
      | xlinvAsid o | xlinvAll o =>
    have ho : o.inRange = true := by unfold wf at hwf; simp_all
    exact decodeSlot_of_carries (fun _ => decodeSlot_D _) (carries_putDR (by decide) ho)
      (fun w hop hget => by unfold wf at hwf; rw [decodeD, hop]; simp_all) hwf

/-- Settles O1: the maps evaluate on the words. -/
theorem wordsDecode : Obligations.WordsDecode := ⟨rfl, rfl, rfl, rfl, rfl, rfl, rfl, rfl, rfl⟩

end Sys2Proof

/-! SUPPORT. Guards (file 04 R128): every instruction that `slotGuard` gives a guard runs whole under it. -/

namespace Sys2Proof

open Sys2Proof.Machine

/-- The instructions without a guard of this kind, the bay instructions, predicate logic and the events, have no guard in `slotGuard`. -/
theorem exec_of_slotGuard {i : Instr} {g : Nat} (s : State) (h : slotGuard i = some g) :
    ∃ effect : State → State, exec i s = .next (s.guarded g effect) := by
  cases i <;> cases h
  all_goals exact ⟨_, rfl⟩

/-- The dot products test the bay's lanes before their tags. -/
theorem dot_noLane {s : State} {g : Nat} {o : OpV} (h : s.anyActive g o.bay = false) (n : Nat) (sat : Bool) :
    s.dot o g n sat = .next s := by simp [State.dot, h]

/-- Settles O56: a guard of 0 leaves the whole instruction out, and the bay instructions named test their lanes before anything else. -/
theorem guardZero : Obligations.GuardZero := by
  unfold Obligations.GuardZero
  constructor
  · intro i g s hguard hzero
    obtain ⟨effect, hexec⟩ := exec_of_slotGuard s hguard
    rw [hexec, guarded_false s g effect hzero]
  · intro o s hlanes
    have hstop (t : State) : (.next (if !s.anyActive o.g o.bay then s else t) : Result) = .next s := by simp [hlanes]
    have hcopy (t : State) : (.next (if s.anyActive o.g o.bay then t else s) : Result) = .next s := by simp [hlanes]
    simp only [List.forall_mem_cons, List.not_mem_nil, false_imp_iff, implies_true, and_true]
    exact ⟨hstop _, hstop _, dot_noLane hlanes 8 false, dot_noLane hlanes 8 true, hstop _, hstop _, hstop _, hstop _,
      hcopy _, hcopy _, hcopy _, hcopy _⟩

end Sys2Proof
